-- ==== Sys2Proof/Word.lean ====
section
/-! DEFINITION. The word types of the Morse encoder block and their plainest arithmetic. -/

namespace Sys2Proof

/-- A message byte or a queue symbol (30_encoding R91, R98). -/
abbrev Byte := BitVec 8

/-- A bit-pattern word (30_encoding R94), bit `W−1` first: the number below `2^W` that its bits write. `W` is a parameter of the
machine (00_scope R6), so it is not in the type. DESIGN CHOICE, log 6. -/
abbrev Pattern := Nat

/-- A run length, a natural 0..`W` (30_encoding R90; 10_state R22; log 6). -/
abbrev RunLength := Nat

end Sys2Proof
end

