-- ==== Sys2Proof/Config.lean ====
section
/-! DEFINITION. What an implementation fixes: the parameters of 00_scope R6, the symbol bytes of 30_encoding R98 and the
symbol table of 30_encoding R96. The spec leaves no value undefined, so there is no free value here (log 16). -/

namespace Sys2Proof

/-- The parameters of 00_scope R6 that the rules are written for every value of. They never change in a run. -/
structure Config where
  /-- `W`: the width in bits of a bit-pattern and of `pat`. -/
  patWidth : Nat
  /-- `QUEUE_CAP`: the greatest number of symbols in the queue. -/
  queueCap : Nat
  /-- `SEPARATORS`: the bytes classed as separator. -/
  separators : List Byte
  /-- `MSG_MAX`, OPEN in the spec (D19): the greatest message length, or unbounded. -/
  msgMax : Option Nat
  /-- `CLK_HZ`, OPEN in the spec (D15): the clock frequency, if one is named. No step depends on it (70 R262). -/
  clkHz : Option Nat
  /-- `RD_MAX_BITS`: the width in bits of the `max_count` operand of `READ`. -/
  rdMaxBits : Nat
deriving DecidableEq, Repr

/-- The values this hardware takes (00_scope R6). `MSG_MAX` unbounded is a DESIGN CHOICE (unsafe, log 5); no clock frequency is
named (log 15). -/
def Config.standard : Config :=
  { patWidth := 16, queueCap := 32768, separators := [0x20#8], msgMax := none, clkHz := none, rdMaxBits := 16 }

/-- A message of `n` bytes is expressible at the port (00_scope R6, 70 R263). -/
def Config.fits (c : Config) (n : Nat) : Bool :=
  match c.msgMax with
  | none => true
  | some m => decide (n ≤ m)

/-- `DOT`, the symbol `.` (30_encoding R98). -/
def symDot : Byte := 0x2E#8
/-- `DASH`, the symbol `-` (30_encoding R98). -/
def symDash : Byte := 0x2D#8
/-- `SP`, the gap marker (30_encoding R98). -/
def symSpace : Byte := 0x20#8
/-- `NL`, the line feed a drain appends (30_encoding R98). -/
def symNewline : Byte := 0x0A#8

/-- The four bytes the queue may hold (30_encoding R98). -/
def isSymbol (b : Byte) : Bool := b == symDot || b == symDash || b == symSpace || b == symNewline

/-- `DOT_MS_MIN` (00_scope R6). -/
def dotMsMin : Int := 1
/-- `DOT_MS_MAX` (00_scope R6). -/
def dotMsMax : Int := 2000
/-- `DOT_MS_DEFAULT` (00_scope R6). -/
def dotMsDefault : BitVec 11 := 200#11
/-- `LETTER_GAP_RESIDUAL` = 3 − 1 (00_scope R6). -/
def letterGapResidual : BitVec 3 := 2#3
/-- `WORD_GAP_RESIDUAL` = 7 − 3 (00_scope R6). -/
def wordGapResidual : BitVec 3 := 4#3

/-- A word of the table of 30_encoding R96, which is written for `W = 16`, for the width `W ≥ 13`: the same bit string, of at most
13 bits, padded with zeros to `W` bits. -/
def padWord (width word : Nat) : Pattern := word / 2 ^ 3 * 2 ^ (width - 13)

/-- The symbol table for a width, `ROM[0]` for A to `ROM[25]` for Z (30_encoding R96). -/
def romTable (width : Nat) : Vector Pattern 26 :=
  #v[padWord width 0xB800, padWord width 0xEA80, padWord width 0xEBA0, padWord width 0xEA00, padWord width 0x8000, padWord width 0xAE80,
     padWord width 0xEE80, padWord width 0xAA00, padWord width 0xA000, padWord width 0xBBB8, padWord width 0xEB80, padWord width 0xBA80,
     padWord width 0xEE00, padWord width 0xE800, padWord width 0xEEE0, padWord width 0xBBA0, padWord width 0xEEB8, padWord width 0xBA00,
     padWord width 0xA800, padWord width 0xE000, padWord width 0xAE00, padWord width 0xAB80, padWord width 0xBB80, padWord width 0xEAE0,
     padWord width 0xEBB8, padWord width 0xEEA0]

end Sys2Proof
end

