-- ==== Sys2Proof/Syntax.lean ====
section
/-! DEFINITION. The instructions: one constructor per row of spec/opcode_table.json, and the encoded things an instruction
is selected by (30_encoding R90, R104). -/

namespace Sys2Proof

/-- What the host presents on the command port in one step: `cmd`, `wr_msg` (of `wr_len` bytes) and `rd_max`
(44_host_commands R205, 30_encoding R101). -/
structure CommandPort where
  code : BitVec 3
  message : List Byte
  maxCount : Nat
deriving DecidableEq, Repr

/-- The engine steps selected by `st` alone (30_encoding R104, format `STEP`). -/
inductive SoloStep where
  | sep2 | next | load | shift | fin
deriving DecidableEq, Repr

/-- The formats of spec/opcode_table.json. -/
inductive Format where
  | char | step | pat | run | cmd
deriving DecidableEq, Repr

/-- What an instruction is selected by: a message byte, the end of the message, the engine state, the pattern, a run
length, or the command port (30_encoding R90, R104). -/
inductive Selector where
  /-- `MSG[idx]` when `st = FETCH` and `idx < len`. -/
  | char (b : Byte)
  /-- No byte: `st = FETCH` and `idx = len`. -/
  | noByte
  /-- `st` alone. -/
  | solo (step : SoloStep)
  /-- `pat` when `st = BIT`. -/
  | pat (w : Pattern)
  /-- A run length, inside `BIT0` and `FIN`. -/
  | run (n : RunLength)
  /-- A host command step. -/
  | cmd (p : CommandPort)
deriving DecidableEq, Repr

/-- The table's format of a selector. -/
def Selector.format : Selector → Format
  | .char _ => .char
  | .noByte => .char
  | .solo _ => .step
  | .pat _ => .pat
  | .run _ => .run
  | .cmd _ => .cmd

/-- One constructor per row of spec/opcode_table.json. A letter's operand is its case bit `b[5]`, which the block
ignores (30_encoding R91); `sep` and `ign` carry their byte; `bit1` and `bit0` the bits of the pattern below the top one;
`flushNone` the run length; `rsv4to7` the low two bits of the command code. -/
inductive Instr where
  /-- `LETTER_A`, Morse code `.-` (41_letters R140). -/
  | letterA (lower : Bool)
  /-- `LETTER_B`, Morse code `-...` (41_letters R141). -/
  | letterB (lower : Bool)
  /-- `LETTER_C`, Morse code `-.-.` (41_letters R142). -/
  | letterC (lower : Bool)
  /-- `LETTER_D`, Morse code `-..` (41_letters R143). -/
  | letterD (lower : Bool)
  /-- `LETTER_E`, Morse code `.` (41_letters R144). -/
  | letterE (lower : Bool)
  /-- `LETTER_F`, Morse code `..-.` (41_letters R145). -/
  | letterF (lower : Bool)
  /-- `LETTER_G`, Morse code `--.` (41_letters R146). -/
  | letterG (lower : Bool)
  /-- `LETTER_H`, Morse code `....` (41_letters R147). -/
  | letterH (lower : Bool)
  /-- `LETTER_I`, Morse code `..` (41_letters R148). -/
  | letterI (lower : Bool)
  /-- `LETTER_J`, Morse code `.---` (41_letters R149). -/
  | letterJ (lower : Bool)
  /-- `LETTER_K`, Morse code `-.-` (41_letters R150). -/
  | letterK (lower : Bool)
  /-- `LETTER_L`, Morse code `.-..` (41_letters R151). -/
  | letterL (lower : Bool)
  /-- `LETTER_M`, Morse code `--` (41_letters R152). -/
  | letterM (lower : Bool)
  /-- `LETTER_N`, Morse code `-.` (41_letters R153). -/
  | letterN (lower : Bool)
  /-- `LETTER_O`, Morse code `---` (41_letters R154). -/
  | letterO (lower : Bool)
  /-- `LETTER_P`, Morse code `.--.` (41_letters R155). -/
  | letterP (lower : Bool)
  /-- `LETTER_Q`, Morse code `--.-` (41_letters R156). -/
  | letterQ (lower : Bool)
  /-- `LETTER_R`, Morse code `.-.` (41_letters R157). -/
  | letterR (lower : Bool)
  /-- `LETTER_S`, Morse code `...` (41_letters R158). -/
  | letterS (lower : Bool)
  /-- `LETTER_T`, Morse code `-` (41_letters R159). -/
  | letterT (lower : Bool)
  /-- `LETTER_U`, Morse code `..-` (41_letters R160). -/
  | letterU (lower : Bool)
  /-- `LETTER_V`, Morse code `...-` (41_letters R161). -/
  | letterV (lower : Bool)
  /-- `LETTER_W`, Morse code `.--` (41_letters R162). -/
  | letterW (lower : Bool)
  /-- `LETTER_X`, Morse code `-..-` (41_letters R163). -/
  | letterX (lower : Bool)
  /-- `LETTER_Y`, Morse code `-.--` (41_letters R164). -/
  | letterY (lower : Bool)
  /-- `LETTER_Z`, Morse code `--..` (41_letters R165). -/
  | letterZ (lower : Bool)
  /-- `SEP`, a separator byte (42_sequencer R176 to R179). -/
  | sep (b : Byte)
  /-- `IGN`, an ignored byte (42_sequencer R183). -/
  | ign (b : Byte)
  /-- `END`, the message is exhausted (42_sequencer R172). -/
  | endMsg
  /-- `SEP2` (42_sequencer R180). -/
  | sep2
  /-- `NEXT` (42_sequencer R181). -/
  | next
  /-- `LOAD` (40_pulse_generator R120). -/
  | load
  /-- `FIN_SEL`, the pattern is zero (40_pulse_generator R121). -/
  | finSel
  /-- `BIT1`, the pattern's top bit is 1 (40_pulse_generator R122). -/
  | bit1 (rest : Nat)
  /-- `BIT0`, the pattern is non-zero and its top bit is 0 (40_pulse_generator R123). -/
  | bit0 (rest : Nat)
  /-- `SHIFT` (40_pulse_generator R126). -/
  | shift
  /-- `FIN` (40_pulse_generator R127). -/
  | fin
  /-- `FLUSH_DOT`, a run of 1 (40_pulse_generator R124). -/
  | flushDot
  /-- `FLUSH_DASH`, a run of 3 (40_pulse_generator R124). -/
  | flushDash
  /-- `FLUSH_NONE`, any other run (40_pulse_generator R124). -/
  | flushNone (n : RunLength)
  /-- `NOP` (44_host_commands R209). -/
  | nop
  /-- `WRITE msg` (44_host_commands R206, R207). -/
  | write (message : List Byte)
  /-- `READ max_count` (44_host_commands R208). -/
  | read (maxCount : Nat)
  /-- `CLR_OVF` (44_host_commands R210). -/
  | clrOvf
  /-- The reserved command codes 4 to 7 (44_host_commands R211). -/
  | rsv4to7 (low : BitVec 2)
deriving DecidableEq, Repr

/-- The format of an instruction's row in spec/opcode_table.json. -/
def Instr.format : Instr → Format
  | .letterA _ => .char
  | .letterB _ => .char
  | .letterC _ => .char
  | .letterD _ => .char
  | .letterE _ => .char
  | .letterF _ => .char
  | .letterG _ => .char
  | .letterH _ => .char
  | .letterI _ => .char
  | .letterJ _ => .char
  | .letterK _ => .char
  | .letterL _ => .char
  | .letterM _ => .char
  | .letterN _ => .char
  | .letterO _ => .char
  | .letterP _ => .char
  | .letterQ _ => .char
  | .letterR _ => .char
  | .letterS _ => .char
  | .letterT _ => .char
  | .letterU _ => .char
  | .letterV _ => .char
  | .letterW _ => .char
  | .letterX _ => .char
  | .letterY _ => .char
  | .letterZ _ => .char
  | .sep _ => .char
  | .ign _ => .char
  | .endMsg => .char
  | .sep2 => .step
  | .next => .step
  | .load => .step
  | .finSel => .pat
  | .bit1 _ => .pat
  | .bit0 _ => .pat
  | .shift => .step
  | .fin => .step
  | .flushDot => .run
  | .flushDash => .run
  | .flushNone _ => .run
  | .nop => .cmd
  | .write _ => .cmd
  | .read _ => .cmd
  | .clrOvf => .cmd
  | .rsv4to7 _ => .cmd

end Sys2Proof
end

