-- ==== Sys2Proof/WellFormed.lean ====
section
/-! DEFINITION. Well-formed instructions: every operand at a value its encoding admits (30_encoding R91, R92, R100, R101,
R104; 70 R263). Written from the byte ranges, not from the decoder's masks. -/

namespace Sys2Proof

/-- The byte is an ASCII letter of either case: 0x41..0x5A or 0x61..0x7A (30_encoding R91). -/
def isLetterByte (b : Byte) : Bool :=
  (decide (0x41 ≤ b.toNat) && decide (b.toNat ≤ 0x5A)) || (decide (0x61 ≤ b.toNat) && decide (b.toNat ≤ 0x7A))

/-- The ranges of 00_scope R6: `W ≥ 13`, `QUEUE_CAP ≥ 1`, `SEPARATORS` disjoint from the letters, and `RD_MAX_BITS` wide enough
to hold `QUEUE_CAP` (D23). -/
def Config.valid (c : Config) : Bool :=
  decide (13 ≤ c.patWidth) && decide (1 ≤ c.queueCap) && decide (c.queueCap < 2 ^ c.rdMaxBits)
    && c.separators.all fun b => !isLetterByte b

/-- The operands of the instruction are values its encoding admits. -/
def Instr.wellFormed (c : Config) : Instr → Bool
  | .sep b => c.separators.contains b && !isLetterByte b
  | .ign b => !c.separators.contains b && !isLetterByte b
  | .bit1 rest => decide (2 ^ (c.patWidth - 1) + rest < 2 ^ c.patWidth)
  | .bit0 rest => rest != 0 && decide (rest < 2 ^ (c.patWidth - 1))
  | .flushNone n => n != 1 && n != 3
  | .write message => c.fits message.length
  | .read maxCount => decide (maxCount < 2 ^ c.rdMaxBits)
  | .letterA _ => true
  | .letterB _ => true
  | .letterC _ => true
  | .letterD _ => true
  | .letterE _ => true
  | .letterF _ => true
  | .letterG _ => true
  | .letterH _ => true
  | .letterI _ => true
  | .letterJ _ => true
  | .letterK _ => true
  | .letterL _ => true
  | .letterM _ => true
  | .letterN _ => true
  | .letterO _ => true
  | .letterP _ => true
  | .letterQ _ => true
  | .letterR _ => true
  | .letterS _ => true
  | .letterT _ => true
  | .letterU _ => true
  | .letterV _ => true
  | .letterW _ => true
  | .letterX _ => true
  | .letterY _ => true
  | .letterZ _ => true
  | .endMsg => true
  | .sep2 => true
  | .next => true
  | .load => true
  | .finSel => true
  | .shift => true
  | .fin => true
  | .flushDot => true
  | .flushDash => true
  | .nop => true
  | .clrOvf => true
  | .rsv4to7 _ => true

end Sys2Proof
end

