-- ==== Sys2Proof/Decode.lean ====
section
/-! DEFINITION. The decoder and the encoder (30_encoding R90 to R106). Decoding is total; what it rejects, by name, is only what
the port or the register cannot express: a message longer than `MSG_MAX` (70 R263), a `max_count` wider than `RD_MAX_BITS`, a
pattern wider than `W` (log 7). No encoding is illegal (R105). -/

namespace Sys2Proof

/-- Why a selector is rejected. -/
inductive DecodeError where
  /-- A `WRITE` whose message is longer than `MSG_MAX` (70 R263). -/
  | messageTooLong
  /-- A `max_count` that `RD_MAX_BITS` bits do not hold, or a pattern that `W` bits do not hold (00_scope R6; log 7). -/
  | tooWide
deriving DecidableEq, Repr

/-- The classes of a message byte (30_encoding R92). -/
inductive CharClass where
  | letter (k : Fin 26)
  | sep
  | ign
deriving DecidableEq, Repr

/-- The table index of a letter byte, `(b & 0x1F) − 1` (30_encoding R93). -/
def letterIndex (b : Byte) : Fin 26 := Fin.ofNat 26 ((b &&& 0x1F#8).toNat - 1)

/-- `class(b)` (30_encoding R92): the letter test first, on `b & 0xDF`. -/
def classify (c : Config) (b : Byte) : CharClass :=
  if 0x41#8 ≤ (b &&& 0xDF#8) ∧ (b &&& 0xDF#8) ≤ 0x5A#8 then .letter (letterIndex b)
  else if c.separators.contains b then .sep
  else .ign

/-- The letter instruction of a table index and a case bit (30_encoding R91, R93, R104). -/
def letterInstr (k : Fin 26) (lower : Bool) : Instr :=
  match k.val with
  | 0 => .letterA lower
  | 1 => .letterB lower
  | 2 => .letterC lower
  | 3 => .letterD lower
  | 4 => .letterE lower
  | 5 => .letterF lower
  | 6 => .letterG lower
  | 7 => .letterH lower
  | 8 => .letterI lower
  | 9 => .letterJ lower
  | 10 => .letterK lower
  | 11 => .letterL lower
  | 12 => .letterM lower
  | 13 => .letterN lower
  | 14 => .letterO lower
  | 15 => .letterP lower
  | 16 => .letterQ lower
  | 17 => .letterR lower
  | 18 => .letterS lower
  | 19 => .letterT lower
  | 20 => .letterU lower
  | 21 => .letterV lower
  | 22 => .letterW lower
  | 23 => .letterX lower
  | 24 => .letterY lower
  | _ => .letterZ lower

/-- A message byte as an instruction (30_encoding R104). -/
def decodeChar (c : Config) (b : Byte) : Instr :=
  match classify c b with
  | .letter k => letterInstr k (b.getLsbD 5)
  | .sep => .sep b
  | .ign => .ign b

/-- The pattern as a generator micro-operation: `FIN_SEL` is tested first (30_encoding R104). -/
def decodePat (c : Config) (w : Pattern) : Instr :=
  if w = 0 then .finSel
  else if w.testBit (c.patWidth - 1) then .bit1 (w % 2 ^ (c.patWidth - 1))
  else .bit0 (w % 2 ^ (c.patWidth - 1))

/-- A run length as a flush action (30_encoding R100; log 9). -/
def decodeRun (n : RunLength) : Instr :=
  if n = 1 then .flushDot
  else if n = 3 then .flushDash
  else .flushNone n

/-- An engine step selected by `st` alone (30_encoding R104). -/
def decodeSolo : SoloStep → Instr
  | .sep2 => .sep2
  | .next => .next
  | .load => .load
  | .shift => .shift
  | .fin => .fin

/-- A host command (30_encoding R101): codes 4 to 7 are reserved and legal. -/
def decodeCmd (c : Config) (p : CommandPort) : Except DecodeError Instr :=
  if p.code = 0#3 then .ok .nop
  else if p.code = 1#3 then
    if c.fits p.message.length then .ok (.write p.message) else .error .messageTooLong
  else if p.code = 2#3 then
    if p.maxCount < 2 ^ c.rdMaxBits then .ok (.read p.maxCount) else .error .tooWide
  else if p.code = 3#3 then .ok .clrOvf
  else .ok (.rsv4to7 (p.code.setWidth 2))

/-- The instruction a selector stands for. -/
def decode (c : Config) : Selector → Except DecodeError Instr
  | .char b => .ok (decodeChar c b)
  | .noByte => .ok .endMsg
  | .solo st => .ok (decodeSolo st)
  | .pat w => if w < 2 ^ c.patWidth then .ok (decodePat c w) else .error .tooWide
  | .run n => .ok (decodeRun n)
  | .cmd p => decodeCmd c p

/-- The byte of a letter: `b[7:6] = 01`, `b[5]` the case bit, `b[4:0]` the letter number 1..26 (30_encoding R91). -/
def letterByte (number : Nat) (lower : Bool) : Byte :=
  (0b01#2 ++ BitVec.ofBool lower) ++ BitVec.ofNat 5 number

/-- The command port of a command without operands. -/
def bareCommand (code : BitVec 3) : CommandPort := { code := code, message := [], maxCount := 0 }

/-- The encoding of an instruction for the parameters, from the formats of 30_encoding R91, R94, R100, R101 and R104. -/
def encode (c : Config) : Instr → Selector
  | .letterA lower => .char (letterByte 1 lower)
  | .letterB lower => .char (letterByte 2 lower)
  | .letterC lower => .char (letterByte 3 lower)
  | .letterD lower => .char (letterByte 4 lower)
  | .letterE lower => .char (letterByte 5 lower)
  | .letterF lower => .char (letterByte 6 lower)
  | .letterG lower => .char (letterByte 7 lower)
  | .letterH lower => .char (letterByte 8 lower)
  | .letterI lower => .char (letterByte 9 lower)
  | .letterJ lower => .char (letterByte 10 lower)
  | .letterK lower => .char (letterByte 11 lower)
  | .letterL lower => .char (letterByte 12 lower)
  | .letterM lower => .char (letterByte 13 lower)
  | .letterN lower => .char (letterByte 14 lower)
  | .letterO lower => .char (letterByte 15 lower)
  | .letterP lower => .char (letterByte 16 lower)
  | .letterQ lower => .char (letterByte 17 lower)
  | .letterR lower => .char (letterByte 18 lower)
  | .letterS lower => .char (letterByte 19 lower)
  | .letterT lower => .char (letterByte 20 lower)
  | .letterU lower => .char (letterByte 21 lower)
  | .letterV lower => .char (letterByte 22 lower)
  | .letterW lower => .char (letterByte 23 lower)
  | .letterX lower => .char (letterByte 24 lower)
  | .letterY lower => .char (letterByte 25 lower)
  | .letterZ lower => .char (letterByte 26 lower)
  | .sep b => .char b
  | .ign b => .char b
  | .endMsg => .noByte
  | .sep2 => .solo .sep2
  | .next => .solo .next
  | .load => .solo .load
  | .finSel => .pat 0
  | .bit1 rest => .pat (2 ^ (c.patWidth - 1) + rest)
  | .bit0 rest => .pat rest
  | .shift => .solo .shift
  | .fin => .solo .fin
  | .flushDot => .run 1
  | .flushDash => .run 3
  | .flushNone n => .run n
  | .nop => .cmd (bareCommand 0#3)
  | .write message => .cmd { code := 1#3, message := message, maxCount := 0 }
  | .read maxCount => .cmd { code := 2#3, message := [], maxCount := maxCount }
  | .clrOvf => .cmd (bareCommand 3#3)
  | .rsv4to7 low => .cmd (bareCommand (1#1 ++ low))

/-- What the command port holds of the command's own encoding: an operand the command does not have is not part of it
(30_encoding R101). -/
def canonicalCommand (p : CommandPort) : CommandPort where
  code := p.code
  message := if p.code = 1#3 then p.message else []
  maxCount := if p.code = 2#3 then p.maxCount else 0

/-- A selector without what its decoding does not read. -/
def Selector.canonical : Selector → Selector
  | .cmd p => .cmd (canonicalCommand p)
  | .char b => .char b
  | .noByte => .noByte
  | .solo st => .solo st
  | .pat w => .pat w
  | .run n => .run n

/-- The bytes of a number, least significant first (the numbering of spec/opcode_table.json). -/
def littleEndian : Nat → Nat → List Byte
  | 0, _ => []
  | n + 1, w => BitVec.ofNat 8 w :: littleEndian n (w / 256)

/-- Which selector a bare number of spec/opcode_table.json stands for. The table's formats share their numbers, so the
width must decide (DESIGN CHOICE, log 8): no bits are the end of the message; one byte below 8 is a command code (operands
zero), any other byte a message byte; two bytes are a message when the first is a letter, else a pattern; more bytes are a
message, of which the first is the instruction. -/
def tableSelector (nbits w : Nat) : Option Selector :=
  if nbits = 0 then some .noByte
  else if nbits % 8 ≠ 0 then none
  else if nbits = 8 ∧ w % 256 < 8 then some (.cmd (bareCommand (BitVec.ofNat 3 w)))
  else if nbits = 16 ∧ isLetterByte (BitVec.ofNat 8 w) = false then some (.pat (w % 2 ^ nbits))
  else some (.char (BitVec.ofNat 8 w))

/-- The instruction the decoder reads from a number of spec/opcode_table.json, with the standard parameters (log 8). -/
def decodeTableWord (nbits w : Nat) : Option Instr :=
  match tableSelector nbits w with
  | none => none
  | some x =>
    match decode Config.standard x with
    | .ok i => some i
    | .error _ => none

end Sys2Proof
end

