-- ==== Sys2Proof/Machine/State.lean ====
section
/-! DEFINITION. The state of the block (10_state R20), the reasons a step can stop, and the state after reset (10_state R45). -/

namespace Sys2Proof.Machine

/-- The eight values of `st` (10_state R24); their encoding in bits is not observable. -/
inductive EngineState where
  | idle | fetch | sep2 | load | bit | shift | fin | next
deriving DecidableEq, Repr

/-- Who acquires the lock (20_memory R70). -/
inductive Agent where
  | engine | reader
deriving DecidableEq, Repr

/-- The values of `lock` (10_state R41). -/
inductive Lock where
  | free | engine | reader
deriving DecidableEq, Repr

/-- The status codes (30_encoding R102); code 3 is never produced. -/
inductive Status where
  | ok | fault | busy
deriving DecidableEq, Repr

/-- The 2-bit value of a status code (30_encoding R102). -/
def Status.code : Status → BitVec 2
  | .ok => 0#2
  | .fault => 1#2
  | .busy => 2#2

/-- The one exception of the block (60_exceptions R220). -/
structure Interrupted where
  who : Agent
deriving DecidableEq, Repr

/-- The configuration inputs, sampled at reset (30_encoding R103, 44_host_commands R205). -/
structure ConfigPort where
  present : Bool
  dotMs : BitVec 32
deriving DecidableEq, Repr

/-- One entry of the host's script: who moves in a step (00_scope R9; log 1). -/
inductive Event where
  /-- The block's own turn: an engine step if one is enabled, else a `TICK` (R9 (1), (2)). -/
  | block
  /-- A host command step (R9 (3)). -/
  | command (p : CommandPort)
  /-- The host sets the level of `cancel_wr` (R9 (4)). -/
  | cancelWr (level : Bool)
  /-- The host sets the level of `cancel_rd` (R9 (4)). -/
  | cancelRd (level : Bool)
  /-- A reset step (R9 (5)), with whatever command stands on the port and is discarded (60_exceptions R223 (1)). -/
  | reset (cfg : ConfigPort) (discarded : CommandPort)
deriving DecidableEq, Repr

/-- `rsp_status`, `rsp_count`, `rsp_data` of a command step (44_host_commands R205). `count` is 16 bits wide at the port. -/
structure Response where
  status : Status
  count : Nat
  data : List Byte
deriving DecidableEq, Repr

/-- What the latest step showed outside (00_scope R10; log 12): nothing, the response of a host command, or the level that
`pulse` held during the quantum that a `TICK` let pass. -/
inductive Output where
  | none
  | response (r : Response)
  | quantum (level : Bool)
deriving DecidableEq, Repr

/-- The complete state (10_state R20), then the inputs the host holds, the parameters of the machine, and the model's own
fields `events` (log 1) and `out` (log 12). -/
structure State where
  /-- `DOT_MS` (R33). -/
  dotMs : BitVec 11
  /-- `cfg_warn` (R34). -/
  cfgWarn : Bool
  /-- `st` (R24). -/
  st : EngineState
  /-- `wait` (R23). -/
  wait : BitVec 3
  /-- `idx`, the program counter (R28). -/
  idx : Nat
  /-- `len` (R29). -/
  len : Nat
  /-- `first` (R26). -/
  first : Bool
  /-- `bdone` (R27). -/
  bdone : Bool
  /-- `k`, 0..25 (R25; log 10). -/
  k : Fin 26
  /-- `pat`, below `2^W` (R21; log 6). -/
  pat : Pattern
  /-- `ones`, 0..`W` (R22; log 6). -/
  ones : RunLength
  /-- `pulse` (R30). -/
  pulse : Bool
  /-- `ovf` (R32). -/
  ovf : Bool
  /-- `wr_done` (R35). -/
  wrDone : Bool
  /-- `wr_status` (R35). -/
  wrStatus : Status
  /-- `wr_count` (R35). -/
  wrCount : Nat
  /-- `MSG` (R37). -/
  msg : List Byte
  /-- `ROM` (R38). -/
  rom : Vector Pattern 26
  /-- `q`, head first (R39). -/
  q : List Byte
  /-- `lock` (R41). -/
  lock : Lock
  /-- The level of `cancel_wr` (44_host_commands R213). -/
  cancelWr : Bool
  /-- The level of `cancel_rd` (44_host_commands R213). -/
  cancelRd : Bool
  /-- The parameters of the machine (00_scope R6). -/
  cfg : Config
  /-- The model's own: who moves in the coming steps; when it is empty the block runs on its own (log 1). -/
  events : List Event
  /-- The model's own: what the latest step showed outside (log 12). -/
  out : Output
deriving DecidableEq, Repr

/-- The reasons a step stops with a fault. -/
inductive Fault where
  /-- Raised by the engine's fetch when there is nothing to fetch: `idx` is past the message, or no step is enabled.
  20_memory R63 says it cannot occur, and no state that keeps the invariant does it. SAFE (log 11). -/
  | nothingToFetch
deriving DecidableEq, Repr

/-- The reasons a step is refused. -/
inductive Refusal where
  /-- Raised by `exec` for an instruction without a meaning yet; no arm of this model does. SAFE. -/
  | notModelled (mnemonic : String)
  /-- Raised by a host command step with a message longer than `MSG_MAX`: it "has no meaning in the model"
  (70_reset_and_hazards R263). SAFE (log 7). -/
  | messageTooLong
  /-- Raised by a `READ` step whose `max_count` the `RD_MAX_BITS` wires of the port do not hold (44_host_commands R205, R208), and
  by the engine at a pattern that `W` bits do not hold, which no state of the invariant has (10_state R21). SAFE (log 7). -/
  | tooWide
deriving DecidableEq, Repr

/-- The machine right after reset (10_state R45) with `cfg_present = 0` (log 3), the cancel levels 0 (log 4), the standard
parameters (00_scope R6, log 5), and no host script (log 2). -/
def State.reset : State where
  dotMs := 200#11
  cfgWarn := true
  st := .idle
  wait := 0#3
  idx := 0
  len := 0
  first := true
  bdone := false
  k := 0
  pat := 0
  ones := 0
  pulse := false
  ovf := false
  wrDone := false
  wrStatus := .ok
  wrCount := 0
  msg := []
  rom := romTable Config.standard.patWidth
  q := []
  lock := .free
  cancelWr := false
  cancelRd := false
  cfg := Config.standard
  events := []
  out := .none

/-- The three outcomes of a step of this machine. -/
abbrev Result := Host.Outcome State Fault Refusal

end Sys2Proof.Machine
end

