-- ==== Sys2Proof/Machine/Flags.lean ====
section
/-! DEFINITION. The status outputs (10_state R31, R40), the configuration load (44_host_commands R212) and the conversion of
quanta to milliseconds and clock cycles (60_exceptions R236). -/

namespace Sys2Proof.Machine

/-- `busy = 1` exactly when `st ≠ IDLE` (10_state R31). -/
def busy (s : State) : Bool := s.st != .idle

/-- The status outputs of 10_state R40. -/
structure StatusOutputs where
  pulse : Bool
  busy : Bool
  wrDone : Bool
  wrStatus : Status
  wrCount : Nat
  ovf : Bool
  cfgWarn : Bool
  dotMs : BitVec 11
  qCount : Nat
  qEmpty : Bool
  qFull : Bool
deriving DecidableEq, Repr

/-- Each status output is a function of the state, read without side effect and without the lock (10_state R40). -/
def statusOutputs (s : State) : StatusOutputs where
  pulse := s.pulse
  busy := busy s
  wrDone := s.wrDone
  wrStatus := s.wrStatus
  wrCount := s.wrCount
  ovf := s.ovf
  cfgWarn := s.cfgWarn
  dotMs := s.dotMs
  qCount := s.q.length
  qEmpty := s.q.length == 0
  qFull := s.q.length == s.cfg.queueCap

/-- The configured quantum is supplied and in 1..2000 as a signed integer (44_host_commands R212). -/
def configValid (p : ConfigPort) : Bool :=
  p.present && decide (dotMsMin ≤ p.dotMs.toInt) && decide (p.dotMs.toInt ≤ dotMsMax)

/-- The new `DOT_MS` (44_host_commands R212): `cfg_dot_ms[10:0]` or the default. -/
def configDotMs (p : ConfigPort) : BitVec 11 := if configValid p then p.dotMs.setWidth 11 else dotMsDefault

/-- The new `cfg_warn` (44_host_commands R212). -/
def configWarn (p : ConfigPort) : Bool := !configValid p

/-- The milliseconds that `n` quanta last (60_exceptions R236, R237). -/
def quantaMs (s : State) (n : Nat) : Nat := n * s.dotMs.toNat

/-- The clock cycles a quantum lasts, `DOT_MS × CLK_HZ / 1000` (10_state R42, 60_exceptions R236), when a frequency is named and
the product is an integer: otherwise the rounding is left to the implementation (93 U13; log 15). -/
def quantumCycles (s : State) : Option Nat :=
  match s.cfg.clkHz with
  | none => none
  | some hz => if s.dotMs.toNat * hz % 1000 = 0 then some (s.dotMs.toNat * hz / 1000) else none

end Sys2Proof.Machine
end

