-- ==== Sys2Proof/Machine/Operands.lean ====
section
/-! DEFINITION. The operands of the engine's steps: the message byte, the lookahead, the table word, the run-length symbol
and the pattern's shift. -/

namespace Sys2Proof.Machine

/-- One byte of `MSG` (20_memory R60 (a), 43_queue_and_reader R197 (a)): there is one exactly for `i < len`. -/
def readMsg (s : State) (i : Nat) : Option Byte := if i < s.len then s.msg[i]? else none

/-- One word of `ROM` (20_memory R60 (b), 43_queue_and_reader R197 (c)). -/
def readRom (s : State) (k : Fin 26) : Pattern := s.rom[k]

/-- The byte is a letter (30_encoding R92). -/
def isLetterClass (c : Config) (b : Byte) : Bool :=
  match classify c b with
  | .letter _ => true
  | .sep => false
  | .ign => false

/-- `letter_follows(i)`: some `MSG[j]` with `i < j < len` is a letter (42_sequencer R171). -/
def letterFollows (s : State) (i : Nat) : Bool := ((s.msg.take s.len).drop (i + 1)).any (isLetterClass s.cfg)

/-- The symbol of a run length (30_encoding R100). -/
def runSymbol (n : RunLength) : Option Byte :=
  if n = 1 then some symDot
  else if n = 3 then some symDash
  else none

/-- The logical left shift by one, truncated to `W` bits: the bit shifted out is discarded (40_pulse_generator R126, R129). -/
def shiftPattern (c : Config) (p : Pattern) : Pattern := p * 2 % 2 ^ c.patWidth

end Sys2Proof.Machine
end

