-- ==== Sys2Proof/Machine/Ops.lean ====
section
/-! DEFINITION. The shared operations: the lock, the queue, taking the exception, completing and accepting a write, the
passage of a quantum, reset. There is no return from an exception (60_exceptions R227): after it the block is IDLE and the
next `WRITE` starts afresh. -/

namespace Sys2Proof.Machine

/-- The cancellation level an agent samples (20_memory R70). -/
def cancelLevel (s : State) : Agent → Bool
  | .engine => s.cancelWr
  | .reader => s.cancelRd

/-- The value of `lock` while an agent holds it (10_state R41). -/
def Agent.holding : Agent → Lock
  | .engine => .engine
  | .reader => .reader

/-- `Acquire(who)` (20_memory R70): the cancel level is tested before anything else (60_exceptions R223 (2)). -/
def acquire (who : Agent) (s : State) : Except Interrupted State :=
  if cancelLevel s who then .error { who := who } else .ok { s with lock := who.holding }

/-- `Release()` (20_memory R71). -/
def release (s : State) : State := { s with lock := .free }

/-- `Push(c)` (43_queue_and_reader R190): append at the tail, or drop and set `ovf`. -/
def push (c : Byte) (s : State) : State :=
  if s.q.length < s.cfg.queueCap then { s with q := s.q ++ [c] } else { s with ovf := true }

/-- `Enqueue(c)` (43_queue_and_reader R191). -/
def enqueue (c : Byte) (s : State) : Except Interrupted State :=
  match acquire .engine s with
  | .ok s1 => .ok (release (push c s1))
  | .error x => .error x

/-- `Flush(n)` (40_pulse_generator R124): the lock is taken only when a symbol is enqueued (20_memory R72). -/
def flush (n : RunLength) (s : State) : Except Interrupted State :=
  match runSymbol n with
  | some c => enqueue c s
  | none => .ok s

/-- The drain's newline: pushed when the queue is non-empty and does not already end in one (43_queue_and_reader R193). -/
def closeBatch (s : State) : State :=
  if s.q ≠ [] ∧ s.q.getLast? ≠ some symNewline then push symNewline s else s

/-- `Drain(max)` (43_queue_and_reader R193): the bytes copied out, oldest first, and the state after. The count `n` of the
rule is the number of bytes. -/
def drain (max : Nat) (s : State) : Except Interrupted (List Byte × State) :=
  match acquire .reader s with
  | .ok s1 =>
    let s2 := closeBatch s1
    .ok (s2.q.take max, release { s2 with q := s2.q.drop max })
  | .error x => .error x

/-- A command's response appears on the response ports (44_host_commands R205). -/
def respond (r : Response) (s : State) : State := { s with out := .response r }

/-- The response `OK` without data (44_host_commands R206, R209, R210). -/
def respondOk (s : State) : State := respond { status := .ok, count := 0, data := [] } s

/-- Taking the exception `Interrupted(who)`. ENGINE: 60_exceptions R224. READER: R225, reported in the response of the very
command step (R226). Nothing is saved and control goes nowhere. -/
def takeInterrupted (x : Interrupted) (s : State) : State :=
  match x.who with
  | .engine => { s with pulse := false, wait := 0#3, st := .idle, wrDone := true, wrStatus := .fault, wrCount := 0 }
  | .reader => respond { status := .fault, count := 0, data := [] } s

/-- The rest of a step after an operation that may raise: a raise abandons the step's remaining actions and takes the
exception from the state before the step (00_scope R12, 60_exceptions R224). -/
def orInterrupted (s : State) (r : Except Interrupted State) (rest : State → State) : Result :=
  match r with
  | .ok s1 => .next (rest s1)
  | .error x => .next (takeInterrupted x s)

/-- `Complete()` (42_sequencer R182). -/
def complete (s : State) : State := { s with st := .idle, wrDone := true, wrStatus := .ok, wrCount := s.len }

/-- The state change of an accepted `WRITE` (44_host_commands R206). -/
def acceptWrite (message : List Byte) (s : State) : State :=
  { s with msg := message, len := message.length, idx := 0, first := true, bdone := false, wait := 0#3, wrDone := false, st := .fetch }

/-- `TICK` (00_scope R9 (2)): `wait` counts down, never below 0, and the quantum's level is shown. -/
def tick (s : State) : State :=
  { s with wait := if s.wait = 0#3 then 0#3 else s.wait - 1#3, out := .quantum s.pulse }

/-- The reset step (70_reset_and_hazards R250): everything the block holds; `ROM` and the parameters are constants, the
cancel levels are the host's. -/
def resetStep (p : ConfigPort) (s : State) : State :=
  { s with
    dotMs := configDotMs p, cfgWarn := configWarn p, st := .idle, wait := 0#3, idx := 0, len := 0, msg := [],
    first := true, bdone := false, k := 0, pat := 0, ones := 0, pulse := false, ovf := false,
    wrDone := false, wrStatus := .ok, wrCount := 0, q := [], lock := .free }

/-- The memories have their form: `MSG` is exactly `len` bytes, `q` is at most `QUEUE_CAP` symbol bytes (10_state R37, R39;
log 13). -/
def Memory.wf (s : State) : Bool :=
  s.msg.length == s.len && decide (s.q.length ≤ s.cfg.queueCap) && s.q.all isSymbol

end Sys2Proof.Machine
end

