-- ==== Sys2Proof/Machine/Generator.lean ====
section
/-! DEFINITION. The generator's steps (40_pulse_generator R120 to R127) and the run-length decoder's actions (R124). All are
total on every pattern (R128). -/

namespace Sys2Proof.Machine

/-- `LOAD` (40_pulse_generator R120). -/
def execLoad (s : State) : Result :=
  .next { s with pat := readRom s s.k, ones := 0, first := false, bdone := false, st := .bit }

/-- `FIN_SEL` (40_pulse_generator R121). -/
def execFinSel (s : State) : Result := .next { s with st := .fin }

/-- `BIT1` (40_pulse_generator R122). -/
def execBit1 (s : State) : Result :=
  .next { s with pulse := true, ones := s.ones + 1, wait := 1#3, st := .shift }

/-- `BIT0` (40_pulse_generator R123): the run is flushed first, then the pulse is turned off. -/
def execBit0 (s : State) : Result :=
  orInterrupted s (flush s.ones s) fun s1 => { s1 with pulse := false, ones := 0, wait := 1#3, st := .shift }

/-- `SHIFT` (40_pulse_generator R126). -/
def execShift (s : State) : Result := .next { s with pat := shiftPattern s.cfg s.pat, st := .bit }

/-- `FIN` (40_pulse_generator R127): `ones` is left as it is. -/
def execFin (s : State) : Result :=
  orInterrupted s (flush s.ones s) fun s1 => { s1 with pulse := false, wait := 1#3, st := .next }

/-- `FLUSH_DOT` (40_pulse_generator R124 with `n = 1`). -/
def execFlushDot (s : State) : Result := orInterrupted s (enqueue symDot s) fun s1 => s1

/-- `FLUSH_DASH` (40_pulse_generator R124 with `n = 3`). -/
def execFlushDash (s : State) : Result := orInterrupted s (enqueue symDash s) fun s1 => s1

/-- `FLUSH_NONE` (40_pulse_generator R124, any other `n`): nothing, and no fault is possible. -/
def execFlushNone (s : State) : Result := .next s

end Sys2Proof.Machine
end

