-- ==== Sys2Proof/Machine/HostCommands.lean ====
section
/-! DEFINITION. The host commands (44_host_commands R206 to R211). -/

namespace Sys2Proof.Machine

/-- `NOP` (44_host_commands R209). -/
def execNop (s : State) : Result := .next (respondOk s)

/-- `WRITE msg`: accepted when IDLE (44_host_commands R206), else refused with `BUSY` and no other effect (R207). -/
def execWrite (message : List Byte) (s : State) : Result :=
  if busy s then .next (respond { status := .busy, count := 0, data := [] } s)
  else .next (respondOk (acceptWrite message s))

/-- `READ max_count` (44_host_commands R208), accepted in every state. -/
def execRead (maxCount : Nat) (s : State) : Result :=
  match drain maxCount s with
  | .ok (data, s1) => .next (respond { status := .ok, count := data.length, data := data } s1)
  | .error x => .next (takeInterrupted x s)

/-- `CLR_OVF` (44_host_commands R210). -/
def execClrOvf (s : State) : Result := .next (respondOk { s with ovf := false })

/-- The reserved command codes 4 to 7 behave as `NOP` (44_host_commands R211). -/
def execRsv4to7 (s : State) : Result := .next (respondOk s)

end Sys2Proof.Machine
end

