-- ==== Sys2Proof/Machine/Sequencer.lean ====
section
/-! DEFINITION. The sequencer's steps (42_sequencer R172 to R183), apart from the 26 letters, which are in Letters.lean. -/

namespace Sys2Proof.Machine

/-- A letter met by FETCH, the same for all 26: first of the command (42_sequencer R173), first after a word boundary (R174),
or later in a word (R175). -/
def letterStep (kk : Fin 26) (s : State) : Result :=
  if s.first then .next { s with k := kk, st := .load }
  else if s.bdone then .next { s with k := kk, wait := letterGapResidual, st := .load }
  else orInterrupted s (enqueue symSpace s) fun s1 => { s1 with k := kk, wait := letterGapResidual, st := .load }

/-- `SEP`: leading (42_sequencer R176), repeated (R177), opening a boundary (R178), trailing (R179). -/
def execSep (s : State) : Result :=
  if s.first then .next { s with st := .next }
  else if s.bdone then .next { s with st := .next }
  else if letterFollows s s.idx then orInterrupted s (enqueue symSpace s) fun s1 => { s1 with st := .sep2 }
  else .next (complete s)

/-- `IGN` (42_sequencer R183). -/
def execIgn (s : State) : Result := .next { s with st := .next }

/-- `END` (42_sequencer R172). -/
def execEnd (s : State) : Result := .next (complete s)

/-- `SEP2` (42_sequencer R180). -/
def execSep2 (s : State) : Result :=
  orInterrupted s (enqueue symSpace s) fun s1 => { s1 with bdone := true, wait := wordGapResidual, st := .next }

/-- `NEXT` (42_sequencer R181). -/
def execNext (s : State) : Result := .next { s with idx := s.idx + 1, st := .fetch }

end Sys2Proof.Machine
end

