-- ==== Sys2Proof/Machine/Letters.lean ====
section
/-! DEFINITION. The 26 letter instructions (41_letters R140 to R165): each is the common letter step at its own table index.
The case bit has no effect (30_encoding R91, R93). -/

namespace Sys2Proof.Machine

/-- `LETTER_A` (41_letters R140): table index 0. -/
def execLetterA (s : State) : Result := letterStep 0 s

/-- `LETTER_B` (41_letters R141): table index 1. -/
def execLetterB (s : State) : Result := letterStep 1 s

/-- `LETTER_C` (41_letters R142): table index 2. -/
def execLetterC (s : State) : Result := letterStep 2 s

/-- `LETTER_D` (41_letters R143): table index 3. -/
def execLetterD (s : State) : Result := letterStep 3 s

/-- `LETTER_E` (41_letters R144): table index 4. -/
def execLetterE (s : State) : Result := letterStep 4 s

/-- `LETTER_F` (41_letters R145): table index 5. -/
def execLetterF (s : State) : Result := letterStep 5 s

/-- `LETTER_G` (41_letters R146): table index 6. -/
def execLetterG (s : State) : Result := letterStep 6 s

/-- `LETTER_H` (41_letters R147): table index 7. -/
def execLetterH (s : State) : Result := letterStep 7 s

/-- `LETTER_I` (41_letters R148): table index 8. -/
def execLetterI (s : State) : Result := letterStep 8 s

/-- `LETTER_J` (41_letters R149): table index 9. -/
def execLetterJ (s : State) : Result := letterStep 9 s

/-- `LETTER_K` (41_letters R150): table index 10. -/
def execLetterK (s : State) : Result := letterStep 10 s

/-- `LETTER_L` (41_letters R151): table index 11. -/
def execLetterL (s : State) : Result := letterStep 11 s

/-- `LETTER_M` (41_letters R152): table index 12. -/
def execLetterM (s : State) : Result := letterStep 12 s

/-- `LETTER_N` (41_letters R153): table index 13. -/
def execLetterN (s : State) : Result := letterStep 13 s

/-- `LETTER_O` (41_letters R154): table index 14. -/
def execLetterO (s : State) : Result := letterStep 14 s

/-- `LETTER_P` (41_letters R155): table index 15. -/
def execLetterP (s : State) : Result := letterStep 15 s

/-- `LETTER_Q` (41_letters R156): table index 16. -/
def execLetterQ (s : State) : Result := letterStep 16 s

/-- `LETTER_R` (41_letters R157): table index 17. -/
def execLetterR (s : State) : Result := letterStep 17 s

/-- `LETTER_S` (41_letters R158): table index 18. -/
def execLetterS (s : State) : Result := letterStep 18 s

/-- `LETTER_T` (41_letters R159): table index 19. -/
def execLetterT (s : State) : Result := letterStep 19 s

/-- `LETTER_U` (41_letters R160): table index 20. -/
def execLetterU (s : State) : Result := letterStep 20 s

/-- `LETTER_V` (41_letters R161): table index 21. -/
def execLetterV (s : State) : Result := letterStep 21 s

/-- `LETTER_W` (41_letters R162): table index 22. -/
def execLetterW (s : State) : Result := letterStep 22 s

/-- `LETTER_X` (41_letters R163): table index 23. -/
def execLetterX (s : State) : Result := letterStep 23 s

/-- `LETTER_Y` (41_letters R164): table index 24. -/
def execLetterY (s : State) : Result := letterStep 24 s

/-- `LETTER_Z` (41_letters R165): table index 25. -/
def execLetterZ (s : State) : Result := letterStep 25 s

end Sys2Proof.Machine
end

