-- ==== Sys2Proof/Machine/Dispatch.lean ====
section
/-! DEFINITION. The meaning of every instruction: one arm per constructor, each one call of its meaning. -/

namespace Sys2Proof.Machine

def exec (i : Instr) (s : State) : Host.Outcome State Fault Refusal :=
  match i with
  | .letterA _ => Sys2Proof.Machine.execLetterA s
  | .letterB _ => Sys2Proof.Machine.execLetterB s
  | .letterC _ => Sys2Proof.Machine.execLetterC s
  | .letterD _ => Sys2Proof.Machine.execLetterD s
  | .letterE _ => Sys2Proof.Machine.execLetterE s
  | .letterF _ => Sys2Proof.Machine.execLetterF s
  | .letterG _ => Sys2Proof.Machine.execLetterG s
  | .letterH _ => Sys2Proof.Machine.execLetterH s
  | .letterI _ => Sys2Proof.Machine.execLetterI s
  | .letterJ _ => Sys2Proof.Machine.execLetterJ s
  | .letterK _ => Sys2Proof.Machine.execLetterK s
  | .letterL _ => Sys2Proof.Machine.execLetterL s
  | .letterM _ => Sys2Proof.Machine.execLetterM s
  | .letterN _ => Sys2Proof.Machine.execLetterN s
  | .letterO _ => Sys2Proof.Machine.execLetterO s
  | .letterP _ => Sys2Proof.Machine.execLetterP s
  | .letterQ _ => Sys2Proof.Machine.execLetterQ s
  | .letterR _ => Sys2Proof.Machine.execLetterR s
  | .letterS _ => Sys2Proof.Machine.execLetterS s
  | .letterT _ => Sys2Proof.Machine.execLetterT s
  | .letterU _ => Sys2Proof.Machine.execLetterU s
  | .letterV _ => Sys2Proof.Machine.execLetterV s
  | .letterW _ => Sys2Proof.Machine.execLetterW s
  | .letterX _ => Sys2Proof.Machine.execLetterX s
  | .letterY _ => Sys2Proof.Machine.execLetterY s
  | .letterZ _ => Sys2Proof.Machine.execLetterZ s
  | .sep _ => Sys2Proof.Machine.execSep s
  | .ign _ => Sys2Proof.Machine.execIgn s
  | .endMsg => Sys2Proof.Machine.execEnd s
  | .sep2 => Sys2Proof.Machine.execSep2 s
  | .next => Sys2Proof.Machine.execNext s
  | .load => Sys2Proof.Machine.execLoad s
  | .finSel => Sys2Proof.Machine.execFinSel s
  | .bit1 _ => Sys2Proof.Machine.execBit1 s
  | .bit0 _ => Sys2Proof.Machine.execBit0 s
  | .shift => Sys2Proof.Machine.execShift s
  | .fin => Sys2Proof.Machine.execFin s
  | .flushDot => Sys2Proof.Machine.execFlushDot s
  | .flushDash => Sys2Proof.Machine.execFlushDash s
  | .flushNone _ => Sys2Proof.Machine.execFlushNone s
  | .nop => Sys2Proof.Machine.execNop s
  | .write message => Sys2Proof.Machine.execWrite message s
  | .read maxCount => Sys2Proof.Machine.execRead maxCount s
  | .clrOvf => Sys2Proof.Machine.execClrOvf s
  | .rsv4to7 _ => Sys2Proof.Machine.execRsv4to7 s

end Sys2Proof.Machine
end

