-- ==== Sys2Proof/Machine/Fetch.lean ====
section
/-! DEFINITION. What the engine fetches, and where a number of spec/opcode_table.json is placed so that the next step runs
it. -/

namespace Sys2Proof.Machine

/-- An engine step is enabled exactly when `st ≠ IDLE` and `wait = 0` (00_scope R9 (1)). -/
def engineEnabled (s : State) : Bool := busy s && s.wait == 0#3

/-- What selects the engine's step (30_encoding R104, 10_state R24). -/
def fetch (s : State) : Except Fault Selector :=
  match s.st with
  | .idle => .error .nothingToFetch
  | .fetch =>
    if s.idx = s.len then .ok .noByte
    else
      match readMsg s s.idx with
      | some b => .ok (.char b)
      | none => .error .nothingToFetch
  | .sep2 => .ok (.solo .sep2)
  | .load => .ok (.solo .load)
  | .bit => .ok (.pat s.pat)
  | .shift => .ok (.solo .shift)
  | .fin => .ok (.solo .fin)
  | .next => .ok (.solo .next)

/-- A step begins: the script's entry is taken, and nothing has been shown yet. -/
def openStep (rest : List Event) (s : State) : State := { s with events := rest, out := .none }

/-- A number of spec/opcode_table.json where the next step fetches: message bytes as a message at its start, a pattern in
`pat`, a command on the command port (logs 2 and 8). -/
def placeTableWord (nbits w : Nat) (s : State) : State :=
  match tableSelector nbits w with
  | some (.char _) =>
    { s with msg := littleEndian (nbits / 8) w, len := nbits / 8, idx := 0, st := .fetch, wait := 0#3, events := .block :: s.events }
  | some .noByte => { s with msg := [], len := 0, idx := 0, st := .fetch, wait := 0#3, events := .block :: s.events }
  | some (.pat p) => { s with pat := p, st := .bit, wait := 0#3, events := .block :: s.events }
  | some (.cmd p) => { s with events := .command p :: s.events }
  | some (.solo _) => s
  | some (.run _) => s
  | none => s

end Sys2Proof.Machine
end

