-- ==== Sys2Proof/Machine/Turn.lean ====
section
/-! DEFINITION. One turn of an agent (00_scope R9): an engine step, a `TICK`, a host command, a cancel level, a reset. -/

namespace Sys2Proof.Machine

/-- The refusal a rejected encoding ends in. -/
def refusalOf : DecodeError → Refusal
  | .messageTooLong => .messageTooLong
  | .tooWide => .tooWide

/-- Decode and execute. -/
def runSelector (x : Selector) (s : State) : Result :=
  match decode s.cfg x with
  | .ok i => exec i s
  | .error e => .refused (refusalOf e)

/-- The block's own turn: an engine step when one is enabled, else a `TICK` (00_scope R9 (1), (2)). -/
def blockTurn (s : State) : Result :=
  if engineEnabled s then
    match fetch s with
    | .ok x => runSelector x s
    | .error f => .fault f
  else .next (tick s)

/-- The turn an event gives (00_scope R9). -/
def eventTurn (e : Event) (s : State) : Result :=
  match e with
  | .block => blockTurn s
  | .command p => runSelector (.cmd p) s
  | .cancelWr level => .next { s with cancelWr := level }
  | .cancelRd level => .next { s with cancelRd := level }
  | .reset p _ => .next (resetStep p s)

end Sys2Proof.Machine
end

