-- ==== Sys2Proof/Machine/Step.lean ====
section
/-! DEFINITION. One step of the machine, and the host's placing of an instruction. -/

namespace Sys2Proof.Machine

/-- One step: the turn that the script's next entry gives, or the block's own when the script is empty (log 1). -/
def step (s : State) : Host.Outcome State Fault Refusal :=
  match s.events with
  | [] => blockTurn (openStep [] s)
  | e :: rest => eventTurn e (openStep rest s)

/-- `s` with the instruction of a number of spec/opcode_table.json where `step` fetches its next one (logs 2 and 8). -/
def State.withFetchWord (s : State) (nbits w : Nat) : State := placeTableWord nbits w s

end Sys2Proof.Machine
end

