-- ==== Sys2Proof/Machine/Denotation.lean ====
section
/-! DEFINITION. What a letter and a whole message amount to, written from the spec's denotations and not from the engine's
steps: the Morse code and the grammar of a bit-pattern (30_encoding R94 to R96), the decoding of maximal runs
(40_pulse_generator R130), and the letters and gaps of a message (42_sequencer R185). -/

namespace Sys2Proof.Machine

/-- An element of a letter's Morse code. -/
inductive Element where
  | dot | dash
deriving DecidableEq, Repr

/-- The Morse code of a letter (30_encoding R96). -/
def morse (k : Fin 26) : List Element :=
  match k.val with
  | 0 => [.dot, .dash]
  | 1 => [.dash, .dot, .dot, .dot]
  | 2 => [.dash, .dot, .dash, .dot]
  | 3 => [.dash, .dot, .dot]
  | 4 => [.dot]
  | 5 => [.dot, .dot, .dash, .dot]
  | 6 => [.dash, .dash, .dot]
  | 7 => [.dot, .dot, .dot, .dot]
  | 8 => [.dot, .dot]
  | 9 => [.dot, .dash, .dash, .dash]
  | 10 => [.dash, .dot, .dash]
  | 11 => [.dot, .dash, .dot, .dot]
  | 12 => [.dash, .dash]
  | 13 => [.dash, .dot]
  | 14 => [.dash, .dash, .dash]
  | 15 => [.dot, .dash, .dash, .dot]
  | 16 => [.dash, .dash, .dot, .dash]
  | 17 => [.dot, .dash, .dot]
  | 18 => [.dot, .dot, .dot]
  | 19 => [.dash]
  | 20 => [.dot, .dot, .dash]
  | 21 => [.dot, .dot, .dot, .dash]
  | 22 => [.dot, .dash, .dash]
  | 23 => [.dash, .dot, .dot, .dash]
  | 24 => [.dash, .dot, .dash, .dash]
  | _ => [.dash, .dash, .dot, .dot]

/-- `u(dot) = 1`, `u(dash) = 111` (30_encoding R94). -/
def Element.bits : Element → List Bool
  | .dot => [true]
  | .dash => [true, true, true]

/-- The queue symbol of an element (30_encoding R98). -/
def Element.symbol : Element → Byte
  | .dot => symDot
  | .dash => symDash

/-- The bit string `s = u(e_1) 0 u(e_2) 0 … 0 u(e_m)` (30_encoding R94). -/
def bitString : List Element → List Bool
  | [] => []
  | [e] => e.bits
  | e :: f :: es => e.bits ++ false :: bitString (f :: es)

/-- A bit string as a pattern, first bit at `W−1`, zeros below (30_encoding R94). -/
def patternOfBits (width : Nat) (bits : List Bool) : Pattern :=
  bits.foldl (fun n b => 2 * n + b.toNat) 0 * 2 ^ (width - bits.length)

/-- The bits of a pattern from bit `W−1` down to bit 0. -/
def allBits (width : Nat) (p : Pattern) : List Bool := (List.range width).map fun i => p.testBit (width - 1 - i)

/-- The bit string of a pattern, from bit `W−1` down to its lowest set bit (40_pulse_generator R130). -/
def patternBits (width : Nat) (p : Pattern) : List Bool := (allBits width p).rdropWhile (fun b => !b)

/-- The symbols of the maximal runs of 1s, from left to right: `DOT` for a run of 1, `DASH` for a run of 3, nothing otherwise
(40_pulse_generator R130 (c)). -/
def runSymbols (bits : List Bool) : List Byte :=
  (bits.splitOn false).filterMap fun run =>
    if run.length = 1 then some symDot else if run.length = 3 then some symDash else none

/-- What stands before a letter of a message (42_sequencer R185). -/
inductive Gap where
  | start | letter | word
deriving DecidableEq, Repr

/-- The symbols a gap puts in the queue (42_sequencer R185 (a)). -/
def Gap.symbols : Gap → List Byte
  | .start => []
  | .letter => [symSpace]
  | .word => [symSpace, symSpace]

/-- The OFF quanta a gap adds to the trailing one of the letter before it (42_sequencer R185 (b)). -/
def Gap.quanta : Gap → Nat
  | .start => 0
  | .letter => 2
  | .word => 6

/-- The letters of a message with the gap before each; `seen`: a letter stands earlier, `sep`: a separator stands since the
last letter. Ignored bytes are removed (42_sequencer R185). -/
def lettersFrom (c : Config) (seen sep : Bool) : List Byte → List (Gap × Fin 26)
  | [] => []
  | b :: rest =>
    match classify c b with
    | .letter k => (if seen then if sep then .word else .letter else .start, k) :: lettersFrom c true false rest
    | .sep => lettersFrom c seen true rest
    | .ign => lettersFrom c seen sep rest

/-- The letters `l_1 .. l_n` of a message, each with the gap before it (42_sequencer R185). -/
def messageLetters (c : Config) (message : List Byte) : List (Gap × Fin 26) := lettersFrom c false false message

/-- The symbols a message appends to the queue (42_sequencer R185 (a)). -/
def messageSymbols (c : Config) (message : List Byte) : List Byte :=
  (messageLetters c message).flatMap fun x => x.1.symbols ++ (morse x.2).map Element.symbol

/-- The waveform of a message (42_sequencer R185 (b)). -/
def messageWave (c : Config) (message : List Byte) : List Bool :=
  (messageLetters c message).flatMap fun x =>
    List.replicate x.1.quanta false ++ bitString (morse x.2) ++ [false]

/-- The quanta a message lasts (42_sequencer R185 (c)). -/
def messageQuanta (c : Config) (message : List Byte) : Nat :=
  ((messageLetters c message).map fun x => (bitString (morse x.2)).length + 1).sum
    + 2 * (messageLetters c message).countP (fun x => x.1 == .letter)
    + 6 * (messageLetters c message).countP (fun x => x.1 == .word)

end Sys2Proof.Machine
end

