-- ==== Sys2Proof/Machine/Ring.lean ====
section
/-! DEFINITION. The circular-buffer realisation of the queue (10_state R39, 43_queue_and_reader R192, R195). It is hidden: only
the list `q` is architectural, so State does not hold it (log 14); it stands beside the state so that the realisation can be
compared with the list. -/

namespace Sys2Proof.Machine

/-- `QMEM`, `q_head` and `q_count` (10_state R39); `QUEUE_CAP` is the length of `mem`. -/
structure Ring where
  mem : List Byte
  head : Nat
  count : Nat
deriving DecidableEq, Repr

/-- The head is a place of the memory and the count is at most `QUEUE_CAP` (10_state R39). -/
def Ring.wf (r : Ring) : Bool := decide (r.head < r.mem.length) && decide (r.count ≤ r.mem.length)

/-- Element `i` of `q` is `QMEM[(q_head + i) mod QUEUE_CAP]` (10_state R39). -/
def Ring.element (r : Ring) (i : Nat) : Byte := r.mem.getD ((r.head + i) % r.mem.length) 0#8

/-- The architectural queue that a ring stands for (10_state R39). -/
def Ring.toQueue (r : Ring) : List Byte := (List.range r.count).map r.element

/-- `Push` below capacity: write at `(q_head + q_count) mod QUEUE_CAP` and increment the count (10_state R39, R192); at
capacity nothing (43_queue_and_reader R190). -/
def Ring.push (r : Ring) (c : Byte) : Ring :=
  if r.count < r.mem.length then
    { r with mem := r.mem.set ((r.head + r.count) % r.mem.length) c, count := r.count + 1 }
  else r

/-- Removing `n` symbols from the head (10_state R39, 43_queue_and_reader R195). -/
def Ring.remove (r : Ring) (n : Nat) : Ring := { r with head := (r.head + n) % r.mem.length, count := r.count - n }

end Sys2Proof.Machine
end

