-- ==== Sys2Proof/Machine/Run.lean ====
section
/-! DEFINITION. A run of several steps and what it shows outside (00_scope R10): the waveform and the bytes read. -/

namespace Sys2Proof.Machine

/-- `n` steps: what each showed, in order, and the state after; none if a step stops. -/
def runOutputs : Nat → State → Option (List Output × State)
  | 0, s => some ([], s)
  | n + 1, s =>
    match step s with
    | .next t =>
      match runOutputs n t with
      | some (outs, u) => some (t.out :: outs, u)
      | none => none
    | .fault _ => none
    | .refused _ => none

/-- The waveform: the level of each quantum that passed (00_scope R10). -/
def waveOf : List Output → List Bool
  | [] => []
  | .quantum level :: outs => level :: waveOf outs
  | .response _ :: outs => waveOf outs
  | .none :: outs => waveOf outs

/-- The bytes a step's response carries (00_scope R10). -/
def Output.bytes : Output → List Byte
  | .response r => r.data
  | .quantum _ => []
  | .none => []

end Sys2Proof.Machine
end

