-- ==== Sys2Proof/Safety.lean ====
section
/-! DEFINITION. What counts as a safe state and a safe run: the invariant of 10_state R44, strengthened so that every step
keeps it, and the promise of the host that its operands fit the port (70_reset_and_hazards R263). -/

namespace Sys2Proof.Machine

/-- No two adjacent bytes are both newlines (10_state R44 (b)). -/
def noAdjacentNewlines : List Byte → Bool
  | [] => true
  | [_] => true
  | a :: b :: rest => !(a == symNewline && b == symNewline) && noAdjacentNewlines (b :: rest)

/-- The engine is inside a letter's pattern. -/
def inPattern (s : State) : Bool := s.st == .bit || s.st == .shift || s.st == .fin

/-- Every register at its reset value, but for the configuration, the inputs and the model's own fields (10_state R45): what
"no WRITE has been accepted since reset" amounts to in R44 (j). -/
def untouched (s : State) : Bool :=
  s.st == .idle && s.wait == 0#3 && s.idx == 0 && s.len == 0 && s.msg == [] && s.first && !s.bdone && s.k == 0 && s.pat == 0
    && s.ones == 0 && !s.pulse && !s.ovf && s.wrStatus == .ok && s.wrCount == 0 && s.q == []

/-- The invariant of every reachable state (10_state R44), with what keeping it needs. -/
structure Inv (s : State) : Prop where
  /-- R44 (a). -/
  queueFits : s.q.length ≤ s.cfg.queueCap
  /-- R44 (b): only symbols. -/
  queueSymbols : s.q.all isSymbol = true
  /-- R44 (b): no two newlines in a row. -/
  queueNewlines : noAdjacentNewlines s.q = true
  /-- R44 (c), the part about `wait`. -/
  idleWait : s.st = .idle → s.wait = 0#3
  /-- R44 (c) and 40_pulse_generator R132: the level is ON exactly inside a run of a letter's pattern. -/
  pulseLevel : s.pulse = (inPattern s && s.ones != 0)
  /-- R44 (d). -/
  onesBound : s.ones ≤ s.cfg.patWidth
  /-- `pat` is a `W`-bit word (10_state R21). -/
  patFits : s.pat < 2 ^ s.cfg.patWidth
  /-- The table's words are `W`-bit words (10_state R38). -/
  romFits : ∀ k : Fin 26, s.rom[k] < 2 ^ s.cfg.patWidth
  /-- The bits already shifted out bound the run (10_state R22). -/
  bitShifted : s.st = .bit → 2 ^ s.ones ∣ s.pat
  /-- The same before the shift that ends the quantum. -/
  shiftShifted : s.st = .shift → 2 ^ (s.ones - 1) ∣ s.pat
  /-- R44 (e). -/
  idxBound : s.idx ≤ s.len
  /-- A byte is being processed in every state but IDLE and FETCH (10_state R28). -/
  idxRunning : s.st ≠ .idle → s.st ≠ .fetch → s.idx < s.len
  /-- `MSG` is `len` bytes (10_state R37). -/
  msgLength : s.msg.length = s.len
  /-- R44 (f). -/
  lockFree : s.lock = .free
  /-- R44 (g). -/
  firstNoBoundary : s.first = true → s.bdone = false
  /-- A word boundary opens only after a letter (42_sequencer R178). -/
  sep2NotFirst : s.st = .sep2 → s.first = false
  /-- R44 (h). -/
  waitBound : s.wait.toNat ≤ 4
  /-- R44 (i). -/
  dotMsRange : 1 ≤ s.dotMs.toNat ∧ s.dotMs.toNat ≤ 2000
  /-- R44 (j): `wr_done = 0` while a write is in progress. -/
  runningNotDone : s.st ≠ .idle → s.wrDone = false
  /-- R44 (j): `wr_done = 0` in IDLE only when no write has been accepted since reset. -/
  idleNotDone : s.st = .idle → s.wrDone = false → untouched s = true
  /-- `BUSY` never stands in `wr_status` (10_state R35). -/
  statusNotBusy : s.wrStatus ≠ .busy

/-- The operands of a command event are expressible at the port: the message fits `MSG_MAX` (70_reset_and_hazards R263), the
`max_count` of a `READ` fits `RD_MAX_BITS` bits (44_host_commands R205, R208). -/
def eventFits (c : Config) : Event → Bool
  | .command p => (p.code != 1#3 || c.fits p.message.length) && (p.code != 2#3 || decide (p.maxCount < 2 ^ c.rdMaxBits))
  | .block => true
  | .cancelWr _ => true
  | .cancelRd _ => true
  | .reset _ _ => true

/-- The whole script is expressible at the port: the host keeps its promise of 70_reset_and_hazards R263 (log 7). -/
def scriptFits (s : State) : Bool := s.events.all (eventFits s.cfg)

/-- The next step is a reset step. -/
def nextIsReset (s : State) : Bool :=
  match s.events with
  | .reset _ _ :: _ => true
  | _ => false

/-- The next step is the block's own turn, and `rest` is the script after it (00_scope R9; log 1). -/
def blockMoves (s : State) (rest : List Event) : Prop :=
  (s.events = [] ∧ rest = []) ∨ s.events = .block :: rest

/-- What an `Enqueue` of a symbol that is not cancelled leaves, written out from 43_queue_and_reader R190 and R191: the
symbol at the tail, or, when the queue is full, the queue as it was and `ovf` set. -/
def enqueued (c : Byte) (s : State) : State :=
  { s with
    q := if s.q.length < s.cfg.queueCap then s.q ++ [c] else s.q
    ovf := if s.q.length < s.cfg.queueCap then s.ovf else true
    lock := .free }

/-- What an uncancelled `Flush(n)` leaves, written out from the table of 30_encoding R100. -/
def flushed (n : RunLength) (s : State) : State :=
  if n = 1 then enqueued symDot s else if n = 3 then enqueued symDash s else s

/-- The state of 60_exceptions R224, written out. -/
def engineFaulted (s : State) : State :=
  { s with pulse := false, wait := 0#3, st := .idle, wrDone := true, wrStatus := .fault, wrCount := 0 }

/-- The queue of a drain after its newline (43_queue_and_reader R193, R190). -/
def closedQueue (s : State) : List Byte :=
  if s.q = [] ∨ s.q.getLast? = some symNewline ∨ s.cfg.queueCap ≤ s.q.length then s.q else s.q ++ [symNewline]

/-- `ovf` after a drain: set when the newline is dropped (43_queue_and_reader R193, R194 (f)). -/
def closedOvf (s : State) : Bool :=
  if s.q ≠ [] ∧ s.q.getLast? ≠ some symNewline ∧ s.cfg.queueCap ≤ s.q.length then true else s.ovf

end Sys2Proof.Machine
end

