-- ==== Sys2Proof/Certificates/Slice0/Obligations.lean ====
section
/-! DEFINITION. The statements for the provers. A statement about `step` speaks of the script `events`, by which the model says
who moves next: that is the model's choice (log 1), and the script is arbitrary wherever a statement does not fix it. -/

open Sys2Proof Sys2Proof.Machine

/-! ### Encodings -/

/-- 30_encoding R91, R94, R100, R101, R104: every well-formed instruction's encoding decodes to it. -/
def Obligations.DecodeInvertsEncode : Prop :=
  ∀ (c : Config) (i : Instr), i.wellFormed c = true → decode c (encode c i) = .ok i

/-- 30_encoding R90, R104: what decodes to an instruction is its encoding, apart from operands the command does not have. -/
def Obligations.EncodeInvertsDecode : Prop :=
  ∀ (c : Config) (x : Selector) (i : Instr), decode c x = .ok i → encode c i = x.canonical

/-- 30_encoding R105, 70 R263 and 00_scope R6: decoding rejects exactly what cannot be expressed, a `WRITE` whose message is longer
than `MSG_MAX`, a `READ` whose count is wider than `RD_MAX_BITS` and a pattern wider than `W` (the model's choice, log 7), and
what it accepts is well-formed. -/
def Obligations.DecodedIsWellFormed : Prop :=
  ∀ (c : Config) (x : Selector),
    (∀ i, decode c x = .ok i → i.wellFormed c = true) ∧
      ((∃ e, decode c x = .error e) ↔
        (∃ w, x = .pat w ∧ 2 ^ c.patWidth ≤ w) ∨
          ∃ p, x = .cmd p ∧ ((p.code = 1#3 ∧ c.fits p.message.length = false) ∨
            (p.code = 2#3 ∧ 2 ^ c.rdMaxBits ≤ p.maxCount)))

/-- 30_encoding R92: the class of every byte, for every separator set; with the default set 52 letters, the separator 0x20 and
203 ignored values. -/
def Obligations.ClassOfEveryByte : Prop :=
  (∀ (c : Config) (b : Byte),
    (isLetterByte b = true → ∃ k : Fin 26, classify c b = .letter k ∧ k.val + 1 = (b &&& 0x1F#8).toNat) ∧
      (isLetterByte b = false → b ∈ c.separators → classify c b = .sep) ∧
      (isLetterByte b = false → b ∉ c.separators → classify c b = .ign)) ∧
    ((List.range 256).filter fun n => isLetterByte (BitVec.ofNat 8 n)).length = 52 ∧
    (∀ n < 256, classify Config.standard (BitVec.ofNat 8 n) = .sep ↔ n = 0x20) ∧
    (∀ n < 256, classify Config.standard (BitVec.ofNat 8 n) = .ign ↔
      n ≤ 0x1F ∨ (0x21 ≤ n ∧ n ≤ 0x40) ∨ (0x5B ≤ n ∧ n ≤ 0x60) ∨ 0x7B ≤ n) ∧
    ((List.range 256).filter fun n => classify Config.standard (BitVec.ofNat 8 n) == .ign).length = 203

/-- 30_encoding R93: upper and lower case of a letter give the same table index, and with it the same meaning. -/
def Obligations.CaseIsIgnored : Prop :=
  ∀ (c : Config) (k : Fin 26) (s : State),
    classify c (letterByte (k.val + 1) false) = .letter k ∧ classify c (letterByte (k.val + 1) true) = .letter k ∧
      exec (letterInstr k true) s = exec (letterInstr k false) s

/-- 30_encoding R101: the command codes. -/
def Obligations.CommandCodesDecode : Prop :=
  ∀ (c : Config) (m : List Byte) (n : Nat),
    decode c (.cmd { code := 0#3, message := m, maxCount := n }) = .ok .nop ∧
      (c.fits m.length = true → decode c (.cmd { code := 1#3, message := m, maxCount := n }) = .ok (.write m)) ∧
      (n < 2 ^ c.rdMaxBits → decode c (.cmd { code := 2#3, message := m, maxCount := n }) = .ok (.read n)) ∧
      decode c (.cmd { code := 3#3, message := m, maxCount := n }) = .ok .clrOvf ∧
      decode c (.cmd { code := 4#3, message := m, maxCount := n }) = .ok (.rsv4to7 0#2) ∧
      decode c (.cmd { code := 5#3, message := m, maxCount := n }) = .ok (.rsv4to7 1#2) ∧
      decode c (.cmd { code := 6#3, message := m, maxCount := n }) = .ok (.rsv4to7 2#2) ∧
      decode c (.cmd { code := 7#3, message := m, maxCount := n }) = .ok (.rsv4to7 3#2)

/-- 30_encoding R91, R101, R104, a sanity statement: a few words written out from the encodings. -/
def Obligations.WrittenWordsDecode : Prop :=
  decode Config.standard (.char 0b01000001#8) = .ok (.letterA false) ∧
    decode Config.standard (.char 0b01111010#8) = .ok (.letterZ true) ∧
    decode Config.standard (.char 0b00100000#8) = .ok (.sep 0x20#8) ∧
    decode Config.standard (.char 0b00110001#8) = .ok (.ign 0x31#8) ∧
    decode Config.standard (.pat 0b0000000000000000) = .ok .finSel ∧
    decode Config.standard (.pat 0b1011100000000000) = .ok (.bit1 0x3800) ∧
    decode Config.standard (.pat 0b0111000000000000) = .ok (.bit0 0x7000) ∧
    decode Config.standard (.run 0b00011) = .ok .flushDash ∧
    decode Config.standard (.cmd { code := 0b010#3, message := [], maxCount := 100 }) = .ok (.read 100)

/-- 30_encoding R94 and R96: for every width `W ≥ 13` (00_scope R6), every table word is the bit string of its letter's Morse
code, first bit at `W−1`, zeros below. -/
def Obligations.RomWordsFollowTheGrammar : Prop :=
  ∀ (width : Nat) (k : Fin 26), 13 ≤ width →
    (romTable width)[k] = patternOfBits width (bitString (morse k)) ∧
    patternBits width (romTable width)[k] = bitString (morse k) ∧
    (bitString (morse k)).length =
      (morse k).countP (· == .dot) + 3 * (morse k).countP (· == .dash) + ((morse k).length - 1)

/-- 30_encoding R97 (a) to (e), for every width `W ≥ 13` (00_scope R6): the words are `W` bits wide; they are non-zero with the top bit set; runs of 1 are 1 or 3 long and runs of 0 above the padding are 1
long; the longest strings are J, Q and Y with 13 bits and the shortest is E with 1; no two words are equal. -/
def Obligations.RomWordsAreWellShaped : Prop :=
  ∀ width : Nat, 13 ≤ width →
    (∀ k : Fin 26, (romTable width)[k] < 2 ^ width ∧ (romTable width)[k] ≠ 0 ∧ (romTable width)[k].testBit (width - 1) = true ∧
        (∀ run ∈ (patternBits width (romTable width)[k]).splitOn false, run.length = 1 ∨ run.length = 3) ∧
        (patternBits width (romTable width)[k]).length ≤ 13 ∧
        ((patternBits width (romTable width)[k]).length = 13 ↔ k = 9 ∨ k = 16 ∨ k = 24) ∧
        ((patternBits width (romTable width)[k]).length = 1 ↔ k = 4)) ∧
      ∀ j k : Fin 26, (romTable width)[j] = (romTable width)[k] → j = k

/-! ### The sequencer -/

/-- 42_sequencer R173, for all 26 letters of either case: the first letter of a command, and the frame. -/
def Obligations.FirstLetterGoesStraightToLoad : Prop :=
  ∀ (kk : Fin 26) (lower : Bool) (s : State), s.first = true →
    exec (letterInstr kk lower) s = .next { s with k := kk, st := .load }

/-- 42_sequencer R174, for all 26 letters: the first letter after a word boundary waits 2 quanta and enqueues nothing. -/
def Obligations.LetterAfterBoundaryWaitsOnly : Prop :=
  ∀ (kk : Fin 26) (lower : Bool) (s : State), s.first = false → s.bdone = true →
    exec (letterInstr kk lower) s = .next { s with k := kk, wait := 2#3, st := .load }

/-- 42_sequencer R175, for all 26 letters: a later letter of a word enqueues one space and waits 2 quanta, or takes the fault. -/
def Obligations.LetterInWordEnqueuesASpace : Prop :=
  ∀ (kk : Fin 26) (lower : Bool) (s : State), s.first = false → s.bdone = false →
    (s.cancelWr = false →
        exec (letterInstr kk lower) s = .next { enqueued symSpace s with k := kk, wait := 2#3, st := .load }) ∧
      (s.cancelWr = true → exec (letterInstr kk lower) s = .next (engineFaulted s))

/-- 42_sequencer R176, R177 and R183: a leading separator, a repeated separator and an ignored byte only move on. -/
def Obligations.SkippedByteOnlyMovesOn : Prop :=
  ∀ (b : Byte) (s : State),
    (s.first = true ∨ s.bdone = true → exec (.sep b) s = .next { s with st := .next }) ∧
      exec (.ign b) s = .next { s with st := .next }

/-- 42_sequencer R178: the separator that opens a word boundary enqueues the first of two spaces, or takes the fault. -/
def Obligations.OpeningSeparatorEnqueuesTheFirstSpace : Prop :=
  ∀ (b : Byte) (s : State), s.first = false → s.bdone = false → letterFollows s s.idx = true →
    (s.cancelWr = false → exec (.sep b) s = .next { enqueued symSpace s with st := .sep2 }) ∧
      (s.cancelWr = true → exec (.sep b) s = .next (engineFaulted s))

/-- 42_sequencer R172, R179 and R182: the end of the message and a trailing separator complete the command with the full
length and leave `idx`. -/
def Obligations.CompletionReportsTheFullLength : Prop :=
  ∀ s : State,
    exec .endMsg s = .next { s with st := .idle, wrDone := true, wrStatus := .ok, wrCount := s.len } ∧
      ∀ b : Byte, s.first = false → s.bdone = false → letterFollows s s.idx = false →
        exec (.sep b) s = .next { s with st := .idle, wrDone := true, wrStatus := .ok, wrCount := s.len }

/-- 42_sequencer R171: the lookahead is true exactly when a later byte of the message is a letter. -/
def Obligations.LookaheadFindsALaterLetter : Prop :=
  ∀ (s : State) (i : Nat), letterFollows s i = true ↔
    ∃ (j : Nat) (b : Byte), i < j ∧ j < s.len ∧ s.msg[j]? = some b ∧ isLetterByte b = true

/-- 42_sequencer R180: the second space of a boundary and its wait of 4 quanta, or the fault. -/
def Obligations.SecondSpaceOpensTheWordGap : Prop :=
  ∀ s : State,
    (s.cancelWr = false →
        exec .sep2 s = .next { enqueued symSpace s with bdone := true, wait := 4#3, st := .next }) ∧
      (s.cancelWr = true → exec .sep2 s = .next (engineFaulted s))

/-- 42_sequencer R181: `NEXT` advances `idx` by one. -/
def Obligations.NextAdvancesTheIndex : Prop :=
  ∀ s : State, exec .next s = .next { s with idx := s.idx + 1, st := .fetch }

/-! ### The generator -/

/-- 40_pulse_generator R120: `LOAD` reads the table word of `k` and clears `ones`, `first` and `bdone`. -/
def Obligations.LoadReadsTheTableWord : Prop :=
  ∀ s : State, exec .load s =
    .next { s with pat := s.rom[s.k], ones := 0, first := false, bdone := false, st := .bit }

/-- 40_pulse_generator R121: a zero pattern ends the loop, and nothing else changes. -/
def Obligations.ZeroPatternEndsTheLoop : Prop :=
  ∀ s : State, exec .finSel s = .next { s with st := .fin }

/-- 40_pulse_generator R122: a 1 bit turns the pulse ON for one quantum and lengthens the run. -/
def Obligations.OneBitTurnsThePulseOn : Prop :=
  ∀ (rest : Nat) (s : State), exec (.bit1 rest) s =
    .next { s with pulse := true, ones := s.ones + 1, wait := 1#3, st := .shift }

/-- 40_pulse_generator R123: a 0 bit flushes the run, then turns the pulse OFF for one quantum; or takes the fault. -/
def Obligations.ZeroBitFlushesThenTurnsOff : Prop :=
  ∀ (rest : Nat) (s : State),
    (s.cancelWr = false ∨ (s.ones ≠ 1 ∧ s.ones ≠ 3) →
        exec (.bit0 rest) s = .next { flushed s.ones s with pulse := false, ones := 0, wait := 1#3, st := .shift }) ∧
      (s.cancelWr = true → s.ones = 1 ∨ s.ones = 3 → exec (.bit0 rest) s = .next (engineFaulted s))

/-- 40_pulse_generator R126: the shift doubles the pattern modulo `2^W`. -/
def Obligations.ShiftDoublesThePattern : Prop :=
  ∀ s : State, exec .shift s = .next { s with pat := s.pat * 2 % 2 ^ s.cfg.patWidth, st := .bit }

/-- 40_pulse_generator R127: the trailing run is flushed, then one OFF quantum; `ones` is left as it is; or the fault. -/
def Obligations.FinFlushesTheTrailingRun : Prop :=
  ∀ s : State,
    (s.cancelWr = false ∨ (s.ones ≠ 1 ∧ s.ones ≠ 3) →
        exec .fin s = .next { flushed s.ones s with pulse := false, wait := 1#3, st := .next }) ∧
      (s.cancelWr = true → s.ones = 1 ∨ s.ones = 3 → exec .fin s = .next (engineFaulted s))

/-- 40_pulse_generator R124, 30_encoding R100, 60_exceptions R224: the three flush actions, which a run length decodes to; a run
other than 1 or 3 takes no lock and cannot fault. That a flush row has a meaning of its own, `Flush(n)` alone with the engine's
exception, and that a length above `W`, which no run has, decodes to `FLUSH_NONE`, is the model's reading (DEDUCED, log 9). -/
def Obligations.FlushEnqueuesDotOrDash : Prop :=
  ∀ s : State,
    (s.cancelWr = false → exec .flushDot s = .next (enqueued 0x2E#8 s) ∧ exec .flushDash s = .next (enqueued 0x2D#8 s)) ∧
      (s.cancelWr = true → exec .flushDot s = .next (engineFaulted s) ∧ exec .flushDash s = .next (engineFaulted s)) ∧
      (∀ n : RunLength, exec (.flushNone n) s = .next s) ∧
      ∀ (c : Config) (n : RunLength),
        decode c (.run n) = .ok (if n = 1 then .flushDot else if n = 3 then .flushDash else .flushNone n)

/-! ### The queue and the host commands -/

/-- 43_queue_and_reader R190: `Push` appends below capacity; at capacity it drops the incoming symbol and sets `ovf`. -/
def Obligations.PushAppendsOrDrops : Prop :=
  ∀ (c : Byte) (s : State),
    (s.q.length < s.cfg.queueCap → push c s = { s with q := s.q ++ [c] }) ∧
      (s.cfg.queueCap ≤ s.q.length → push c s = { s with ovf := true })

/-- 20_memory R70: with the cancel input at 1 the acquisition raises, otherwise it takes the lock and changes nothing else. -/
def Obligations.AcquireSamplesTheCancelLevel : Prop :=
  ∀ s : State,
    acquire .engine s = (if s.cancelWr then .error { who := .engine } else .ok { s with lock := .engine }) ∧
      acquire .reader s = (if s.cancelRd then .error { who := .reader } else .ok { s with lock := .reader })

/-- 44_host_commands R209 and R211: `NOP` and the reserved codes change no state and answer OK. -/
def Obligations.NopAndReservedCodesOnlyAnswer : Prop :=
  ∀ (low : BitVec 2) (s : State),
    exec .nop s = .next { s with out := .response { status := .ok, count := 0, data := [] } } ∧
      exec (.rsv4to7 low) s = .next { s with out := .response { status := .ok, count := 0, data := [] } }

/-- 44_host_commands R206: an accepted `WRITE`. -/
def Obligations.WriteIsAcceptedWhenIdle : Prop :=
  ∀ (m : List Byte) (s : State), s.st = .idle →
    exec (.write m) s =
      .next { s with
        msg := m, len := m.length, idx := 0, first := true, bdone := false, wait := 0#3, wrDone := false, st := .fetch,
        out := .response { status := .ok, count := 0, data := [] } }

/-- 44_host_commands R207: a refused `WRITE` answers BUSY and changes no state. -/
def Obligations.WriteIsRefusedWhenBusy : Prop :=
  ∀ (m : List Byte) (s : State), s.st ≠ .idle →
    exec (.write m) s = .next { s with out := .response { status := .busy, count := 0, data := [] } }

/-- 44_host_commands R208 and 43_queue_and_reader R193: `READ` closes the batch with a newline, returns the oldest bytes and
removes them, or answers FAULT with nothing changed. -/
def Obligations.ReadDrainsTheQueue : Prop :=
  ∀ (n : Nat) (s : State),
    (s.cancelRd = false →
        exec (.read n) s =
          .next { s with
            q := (closedQueue s).drop n, ovf := closedOvf s, lock := .free,
            out := .response
              { status := .ok, count := min n (closedQueue s).length, data := (closedQueue s).take n } }) ∧
      (s.cancelRd = true →
        exec (.read n) s = .next { s with out := .response { status := .fault, count := 0, data := [] } })

/-- 00_scope R6 and D23: for parameters in their ranges, the greatest `max_count` that `RD_MAX_BITS` bits express returns the
whole batch and empties the queue. -/
def Obligations.GreatestReadEmptiesTheQueue : Prop :=
  ∀ s : State, s.cfg.valid = true → s.q.length ≤ s.cfg.queueCap → s.cancelRd = false →
    (Instr.read (2 ^ s.cfg.rdMaxBits - 1)).wellFormed s.cfg = true ∧
      ∃ t, exec (.read (2 ^ s.cfg.rdMaxBits - 1)) s = .next t ∧ t.q = [] ∧ t.out.bytes = closedQueue s

/-- 44_host_commands R210: `CLR_OVF` clears `ovf` and changes nothing else. -/
def Obligations.ClrOvfClearsOnlyTheFlag : Prop :=
  ∀ s : State, exec .clrOvf s = .next { s with ovf := false, out := .response { status := .ok, count := 0, data := [] } }

/-! ### The exception -/

/-- 60_exceptions R224 and R225: what taking the exception leaves, for either agent. -/
def Obligations.InterruptedSavesNothing : Prop :=
  ∀ s : State,
    takeInterrupted { who := .engine } s =
        { s with pulse := false, wait := 0#3, st := .idle, wrDone := true, wrStatus := .fault, wrCount := 0 } ∧
      takeInterrupted { who := .reader } s = { s with out := .response { status := .fault, count := 0, data := [] } }

/-- 44_host_commands R213, 60_exceptions R220: `wr_status` becomes FAULT only in a step during which `cancel_wr` is 1. -/
def Obligations.FaultNeedsTheCancelLevel : Prop :=
  ∀ s t : State, nextIsReset s = false → s.cancelWr = false → step s = .next t → t.wrStatus = .fault → s.wrStatus = .fault

/-! ### The step -/

/-- 30_encoding R104, 10_state R24: what the engine fetches in each state. -/
def Obligations.FetchSelectsByTheState : Prop :=
  ∀ s : State,
    (s.st = .fetch → s.idx = s.len → fetch s = .ok .noByte) ∧
      (∀ b : Byte, s.st = .fetch → s.idx < s.len → s.msg[s.idx]? = some b → fetch s = .ok (.char b)) ∧
      (s.st = .sep2 → fetch s = .ok (.solo .sep2)) ∧ (s.st = .load → fetch s = .ok (.solo .load)) ∧
      (s.st = .bit → fetch s = .ok (.pat s.pat)) ∧ (s.st = .shift → fetch s = .ok (.solo .shift)) ∧
      (s.st = .fin → fetch s = .ok (.solo .fin)) ∧ (s.st = .next → fetch s = .ok (.solo .next))

/-- 00_scope R9 (1) and (3), with the script of log 1: a step runs the instruction it decodes, from the state with the script's
entry taken and no output yet: the engine's when it is the block's turn and `st ≠ IDLE`, `wait = 0`, and the host's command at any time. -/
def Obligations.StepRunsTheDecodedInstruction : Prop :=
  (∀ (s : State) (rest : List Event) (x : Selector) (i : Instr),
    blockMoves s rest → s.st ≠ .idle → s.wait = 0#3 → fetch s = .ok x → decode s.cfg x = .ok i →
      step s = exec i { s with events := rest, out := .none }) ∧
    ∀ (s : State) (rest : List Event) (p : CommandPort) (i : Instr),
      s.events = .command p :: rest → decode s.cfg (.cmd p) = .ok i →
        step s = exec i { s with events := rest, out := .none }

/-- 00_scope R9 (2): when no engine step is enabled the block's turn is a `TICK`, which shows the level of the quantum, counts
`wait` down and changes nothing else. -/
def Obligations.TickWhenNoEngineStepIsEnabled : Prop :=
  ∀ (s : State) (rest : List Event), blockMoves s rest → s.st = .idle ∨ s.wait ≠ 0#3 →
    step s = .next { s with
      events := rest, out := .quantum s.pulse, wait := if s.wait = 0#3 then 0#3 else s.wait - 1#3 }

/-- 44_host_commands R213: a cancel level has no effect by itself. -/
def Obligations.CancelLevelChangesNothingElse : Prop :=
  ∀ (s : State) (rest : List Event) (level : Bool),
    (s.events = .cancelWr level :: rest → step s = .next { s with events := rest, out := .none, cancelWr := level }) ∧
      (s.events = .cancelRd level :: rest → step s = .next { s with events := rest, out := .none, cancelRd := level })

/-- 70_reset_and_hazards R250, 60_exceptions R223 (1): the reset step, whatever else is going on or presented. -/
def Obligations.ResetStepSetsEverything : Prop :=
  ∀ (s : State) (rest : List Event) (p : ConfigPort) (d : CommandPort), s.events = .reset p d :: rest →
    step s = .next
      { s with
        events := rest, out := .none, dotMs := configDotMs p, cfgWarn := configWarn p, st := .idle, wait := 0#3, idx := 0,
        len := 0, msg := [], first := true, bdone := false, k := 0, pat := 0, ones := 0, pulse := false, ovf := false,
        wrDone := false, wrStatus := .ok, wrCount := 0, q := [], lock := .free }

/-- 44_host_commands R212: the configuration load. -/
def Obligations.ConfigLoadTakesOneToTwoThousand : Prop :=
  ∀ p : ConfigPort,
    (p.present = true ∧ 1 ≤ p.dotMs.toInt ∧ p.dotMs.toInt ≤ 2000 →
        ((configDotMs p).toNat : Int) = p.dotMs.toInt ∧ configWarn p = false) ∧
      (¬(p.present = true ∧ 1 ≤ p.dotMs.toInt ∧ p.dotMs.toInt ≤ 2000) →
        (configDotMs p).toNat = 200 ∧ configWarn p = true)

/-- The model's reset state (its parameters and its cancel levels 0 are the model's choices, logs 3, 4 and 5) is what a reset
step without a configuration value leaves, from any state of that machine. -/
def Obligations.ResetStateIsTheResetStepsResult : Prop :=
  ∀ (s : State) (d : BitVec 32) (c : CommandPort), s.events = [.reset { present := false, dotMs := d } c] →
    s.cancelWr = false → s.cancelRd = false → s.cfg = Config.standard → s.rom = romTable Config.standard.patWidth → step s = .next State.reset

/-! ### Whole-machine rules -/

/-- 10_state R33, R38, 00_scope R8: the table and the parameters never change, and `DOT_MS`, `cfg_warn` only at reset. -/
def Obligations.ConstantsNeverChange : Prop :=
  ∀ s t : State, step s = .next t →
    t.rom = s.rom ∧ t.cfg = s.cfg ∧ (nextIsReset s = false → t.dotMs = s.dotMs ∧ t.cfgWarn = s.cfgWarn)

/-- 20_memory R66: the message cannot change while a command runs. -/
def Obligations.MessageIsFrozenWhileRunning : Prop :=
  ∀ s t : State, nextIsReset s = false → s.st ≠ .idle → step s = .next t → t.msg = s.msg ∧ t.len = s.len

/-- 10_state R28: only `NEXT`, an accepted `WRITE` and reset change `idx`. -/
def Obligations.IndexMovesOnlyByNext : Prop :=
  ∀ s t : State, step s = .next t →
    t.idx = s.idx ∨ (s.st = .next ∧ s.wait = 0#3 ∧ t.st = .fetch ∧ t.idx = s.idx + 1) ∨
      (t.idx = 0 ∧ (nextIsReset s = true ∨ (s.st = .idle ∧ t.st = .fetch)))

/-- 10_state R30: the pulse rises only in a `BIT1` step. -/
def Obligations.PulseRisesOnlyInBitOne : Prop :=
  ∀ s t : State, step s = .next t → s.pulse = false → t.pulse = true →
    s.st = .bit ∧ s.wait = 0#3 ∧ s.pat.testBit (s.cfg.patWidth - 1) = true ∧ t.st = .shift ∧ t.wait = 1#3

/-- 10_state R32: `ovf` rises only when the queue is full and falls only by `CLR_OVF` or reset. -/
def Obligations.OverflowFlagIsSticky : Prop :=
  ∀ s t : State, nextIsReset s = false → step s = .next t →
    t.ovf = s.ovf ∨ (t.ovf = true ∧ s.cfg.queueCap ≤ s.q.length) ∨
      (t.ovf = false ∧ ∃ p rest, s.events = .command p :: rest ∧ p.code = 3#3)

/-- 20_memory R67, R68: every step that is not a reset keeps the order of the stream: what it hands out, followed by what stays, is the queue
before with at most one symbol appended at the tail; a newline is appended by a `READ` only. -/
def Obligations.QueueKeepsFifoOrder : Prop :=
  ∀ s t : State, nextIsReset s = false → step s = .next t →
    ∃ added : List Byte, added.length ≤ 1 ∧ t.out.bytes ++ t.q = s.q ++ added ∧
      (∀ c ∈ added, isSymbol c = true) ∧
      (symNewline ∈ added → ∃ p rest, s.events = .command p :: rest ∧ p.code = 2#3)

/-- 44_host_commands R207 to R211: a host command other than an accepted `WRITE` leaves the engine and its result alone. -/
def Obligations.CommandsLeaveTheEngineAlone : Prop :=
  ∀ (s t : State) (p : CommandPort) (rest : List Event), s.events = .command p :: rest → p.code ≠ 1#3 ∨ s.st ≠ .idle →
    step s = .next t → t = { s with events := rest, out := t.out, q := t.q, ovf := t.ovf, lock := t.lock }

/-- 10_state R33, 40_pulse_generator R131: no rule's outcome depends on `DOT_MS` or on `cfg_warn`. -/
def Obligations.QuantumLengthInfluencesNothing : Prop :=
  ∀ (s : State) (d : BitVec 11) (w : Bool), nextIsReset s = false →
    (∀ t, step s = .next t → step { s with dotMs := d, cfgWarn := w } = .next { t with dotMs := d, cfgWarn := w }) ∧
      (∀ f, step s = .fault f → step { s with dotMs := d, cfgWarn := w } = .fault f) ∧
      ∀ r, step s = .refused r → step { s with dotMs := d, cfgWarn := w } = .refused r

/-! ### Invariants -/

/-- 10_state R44 at the model's reset state (its configuration, cancel levels and parameters are the model's choices, logs 3
to 5). -/
def Obligations.ResetStateSatisfiesTheInvariant : Prop := Inv State.reset

/-- 10_state R44: every step keeps the invariant, from every state that has it. -/
def Obligations.StepKeepsTheInvariant : Prop :=
  ∀ s t : State, Inv s → step s = .next t → Inv t

/-- 30_encoding R105, 20_memory R63: from every state of the invariant, with a host whose operands fit the port, the
step answers a next state, and the promise still holds (what happens without that promise is the model's choice, log 7). -/
def Obligations.InvariantStatesNeverStop : Prop :=
  ∀ s : State, Inv s → scriptFits s = true → ∃ t, step s = .next t ∧ scriptFits t = true

/-- 10_state R37, R39: every step keeps the form of the memories. -/
def Obligations.StepKeepsTheMemoryForm : Prop :=
  ∀ s t : State, Memory.wf s = true → step s = .next t → Memory.wf t = true

/-! ### Runs -/

/-- 00_scope R9, 10_state R23: a wait of `n` quanta is exactly `n` `TICK`s, during which nothing but `wait` changes. -/
def Obligations.WaitLastsExactlyItsQuanta : Prop :=
  ∀ s : State, s.events = [] → s.wait ≠ 0#3 →
    runOutputs s.wait.toNat s =
      some (List.replicate s.wait.toNat (.quantum s.pulse), { s with wait := 0#3, out := .quantum s.pulse })

/-- 40_pulse_generator R130 (a), (b), (c), (d), for every width and every pattern of it: from LOAD to the end of the wait set by FIN, absent a
cancel, the waveform is the pattern's bit string and one OFF quantum, and the queue gains the symbols of its maximal runs,
as far as it has room (43_queue_and_reader R190). -/
def Obligations.PatternIsEmittedAndDecoded : Prop :=
  ∀ s : State, s.events = [] → s.st = .load → s.wait = 0#3 → s.cancelWr = false → s.q.length ≤ s.cfg.queueCap →
    s.rom[s.k] < 2 ^ s.cfg.patWidth →
    ∃ (n : Nat) (outs : List Output) (t : State),
      runOutputs n s = some (outs, t) ∧ t.st = .next ∧ t.wait = 0#3 ∧ t.pulse = false ∧ t.idx = s.idx ∧
        waveOf outs = patternBits s.cfg.patWidth s.rom[s.k] ++ [false] ∧
        (waveOf outs).length = (patternBits s.cfg.patWidth s.rom[s.k]).length + 1 ∧
        t.q = (s.q ++ runSymbols (patternBits s.cfg.patWidth s.rom[s.k])).take s.cfg.queueCap ∧
        t.ovf = (s.ovf || decide (s.cfg.queueCap < s.q.length + (runSymbols (patternBits s.cfg.patWidth s.rom[s.k])).length))

/-- 42_sequencer R185: what a whole message amounts to, for every message and every width `W ≥ 13`: its symbols (as far as the queue has room), its
waveform, its duration and its result. -/
def Obligations.MessageIsEmittedAndDecoded : Prop :=
  ∀ (s : State) (m : List Byte) (n : Nat),
    s.events = [.command { code := 1#3, message := m, maxCount := n }] → s.st = .idle → s.pulse = false →
      s.cancelWr = false → 13 ≤ s.cfg.patWidth → s.rom = romTable s.cfg.patWidth → s.cfg.fits m.length = true → s.q.length ≤ s.cfg.queueCap →
      ∃ (steps : Nat) (outs : List Output) (t : State),
        runOutputs steps s = some (outs, t) ∧ t.events = [] ∧ t.st = .idle ∧ t.wrDone = true ∧ t.wrStatus = .ok ∧
          t.wrCount = m.length ∧ t.pulse = false ∧
          waveOf outs = messageWave s.cfg m ∧ (waveOf outs).length = messageQuanta s.cfg m ∧
          t.q = (s.q ++ messageSymbols s.cfg m).take s.cfg.queueCap

/-- 42_sequencer R186: every `WRITE` terminates, whatever the width, the table of words of that width, the queue and the cancel
level: within `W + 1 + 4 + 2` quanta for each byte. -/
def Obligations.EveryWriteTerminates : Prop :=
  ∀ (s : State) (m : List Byte) (n : Nat),
    s.events = [.command { code := 1#3, message := m, maxCount := n }] → s.st = .idle → s.cfg.fits m.length = true →
      (∀ k : Fin 26, s.rom[k] < 2 ^ s.cfg.patWidth) →
      ∃ (steps : Nat) (outs : List Output) (t : State),
        runOutputs steps s = some (outs, t) ∧ t.events = [] ∧ t.st = .idle ∧ t.wrDone = true ∧
          (waveOf outs).length ≤ (s.cfg.patWidth + 1 + 4 + 2) * m.length

/-- 42_sequencer R185 (`n = 0`) and 60_exceptions R227: a message with no letter completes with OK at once, whatever the
cancel level, and leaves the queue alone. -/
def Obligations.MessageWithoutLettersIsSilent : Prop :=
  ∀ (s : State) (m : List Byte) (n : Nat),
    s.events = [.command { code := 1#3, message := m, maxCount := n }] → s.st = .idle → s.cfg.fits m.length = true →
      (∀ b ∈ m, isLetterByte b = false) →
      ∃ (steps : Nat) (outs : List Output) (t : State),
        runOutputs steps s = some (outs, t) ∧ t.events = [] ∧ t.st = .idle ∧ t.wrDone = true ∧ t.wrStatus = .ok ∧
          t.wrCount = m.length ∧ waveOf outs = [] ∧ t.q = s.q

/-! ### The hidden realisation of the queue -/

/-- 10_state R39, 43_queue_and_reader R192, R195: the circular buffer stands for the list: `Push` appends below capacity and
drops at capacity, removing takes from the head, and both keep the buffer's form. -/
def Obligations.RingStandsForTheQueue : Prop :=
  ∀ (r : Ring) (c : Byte) (n : Nat), r.wf = true →
    (r.push c).wf = true ∧
      (r.push c).toQueue = (if r.toQueue.length < r.mem.length then r.toQueue ++ [c] else r.toQueue) ∧
      (n ≤ r.count → (r.remove n).wf = true ∧ (r.remove n).toQueue = r.toQueue.drop n)
end

