-- ==== Sys2Proof/Laws/State.lean ====
section
/-! SUPPORT. What each named update of the state does to each field: one lemma per field per update. -/

namespace Sys2Proof.Machine

/-! The fields of `release s`. -/

@[simp] theorem release_dotMs (s : State) : (release s).dotMs = s.dotMs := rfl
@[simp] theorem release_cfgWarn (s : State) : (release s).cfgWarn = s.cfgWarn := rfl
@[simp] theorem release_st (s : State) : (release s).st = s.st := rfl
@[simp] theorem release_wait (s : State) : (release s).wait = s.wait := rfl
@[simp] theorem release_idx (s : State) : (release s).idx = s.idx := rfl
@[simp] theorem release_len (s : State) : (release s).len = s.len := rfl
@[simp] theorem release_first (s : State) : (release s).first = s.first := rfl
@[simp] theorem release_bdone (s : State) : (release s).bdone = s.bdone := rfl
@[simp] theorem release_k (s : State) : (release s).k = s.k := rfl
@[simp] theorem release_pat (s : State) : (release s).pat = s.pat := rfl
@[simp] theorem release_ones (s : State) : (release s).ones = s.ones := rfl
@[simp] theorem release_pulse (s : State) : (release s).pulse = s.pulse := rfl
@[simp] theorem release_ovf (s : State) : (release s).ovf = s.ovf := rfl
@[simp] theorem release_wrDone (s : State) : (release s).wrDone = s.wrDone := rfl
@[simp] theorem release_wrStatus (s : State) : (release s).wrStatus = s.wrStatus := rfl
@[simp] theorem release_wrCount (s : State) : (release s).wrCount = s.wrCount := rfl
@[simp] theorem release_msg (s : State) : (release s).msg = s.msg := rfl
@[simp] theorem release_rom (s : State) : (release s).rom = s.rom := rfl
@[simp] theorem release_q (s : State) : (release s).q = s.q := rfl
@[simp] theorem release_lock (s : State) : (release s).lock = .free := rfl
@[simp] theorem release_cancelWr (s : State) : (release s).cancelWr = s.cancelWr := rfl
@[simp] theorem release_cancelRd (s : State) : (release s).cancelRd = s.cancelRd := rfl
@[simp] theorem release_cfg (s : State) : (release s).cfg = s.cfg := rfl
@[simp] theorem release_events (s : State) : (release s).events = s.events := rfl
@[simp] theorem release_out (s : State) : (release s).out = s.out := rfl

/-! The fields of `respond r s`. -/

@[simp] theorem respond_dotMs (r : Response) (s : State) : (respond r s).dotMs = s.dotMs := rfl
@[simp] theorem respond_cfgWarn (r : Response) (s : State) : (respond r s).cfgWarn = s.cfgWarn := rfl
@[simp] theorem respond_st (r : Response) (s : State) : (respond r s).st = s.st := rfl
@[simp] theorem respond_wait (r : Response) (s : State) : (respond r s).wait = s.wait := rfl
@[simp] theorem respond_idx (r : Response) (s : State) : (respond r s).idx = s.idx := rfl
@[simp] theorem respond_len (r : Response) (s : State) : (respond r s).len = s.len := rfl
@[simp] theorem respond_first (r : Response) (s : State) : (respond r s).first = s.first := rfl
@[simp] theorem respond_bdone (r : Response) (s : State) : (respond r s).bdone = s.bdone := rfl
@[simp] theorem respond_k (r : Response) (s : State) : (respond r s).k = s.k := rfl
@[simp] theorem respond_pat (r : Response) (s : State) : (respond r s).pat = s.pat := rfl
@[simp] theorem respond_ones (r : Response) (s : State) : (respond r s).ones = s.ones := rfl
@[simp] theorem respond_pulse (r : Response) (s : State) : (respond r s).pulse = s.pulse := rfl
@[simp] theorem respond_ovf (r : Response) (s : State) : (respond r s).ovf = s.ovf := rfl
@[simp] theorem respond_wrDone (r : Response) (s : State) : (respond r s).wrDone = s.wrDone := rfl
@[simp] theorem respond_wrStatus (r : Response) (s : State) : (respond r s).wrStatus = s.wrStatus := rfl
@[simp] theorem respond_wrCount (r : Response) (s : State) : (respond r s).wrCount = s.wrCount := rfl
@[simp] theorem respond_msg (r : Response) (s : State) : (respond r s).msg = s.msg := rfl
@[simp] theorem respond_rom (r : Response) (s : State) : (respond r s).rom = s.rom := rfl
@[simp] theorem respond_q (r : Response) (s : State) : (respond r s).q = s.q := rfl
@[simp] theorem respond_lock (r : Response) (s : State) : (respond r s).lock = s.lock := rfl
@[simp] theorem respond_cancelWr (r : Response) (s : State) : (respond r s).cancelWr = s.cancelWr := rfl
@[simp] theorem respond_cancelRd (r : Response) (s : State) : (respond r s).cancelRd = s.cancelRd := rfl
@[simp] theorem respond_cfg (r : Response) (s : State) : (respond r s).cfg = s.cfg := rfl
@[simp] theorem respond_events (r : Response) (s : State) : (respond r s).events = s.events := rfl
@[simp] theorem respond_out (r : Response) (s : State) : (respond r s).out = .response r := rfl

/-! The fields of `openStep rest s`. -/

@[simp] theorem openStep_dotMs (rest : List Event) (s : State) : (openStep rest s).dotMs = s.dotMs := rfl
@[simp] theorem openStep_cfgWarn (rest : List Event) (s : State) : (openStep rest s).cfgWarn = s.cfgWarn := rfl
@[simp] theorem openStep_st (rest : List Event) (s : State) : (openStep rest s).st = s.st := rfl
@[simp] theorem openStep_wait (rest : List Event) (s : State) : (openStep rest s).wait = s.wait := rfl
@[simp] theorem openStep_idx (rest : List Event) (s : State) : (openStep rest s).idx = s.idx := rfl
@[simp] theorem openStep_len (rest : List Event) (s : State) : (openStep rest s).len = s.len := rfl
@[simp] theorem openStep_first (rest : List Event) (s : State) : (openStep rest s).first = s.first := rfl
@[simp] theorem openStep_bdone (rest : List Event) (s : State) : (openStep rest s).bdone = s.bdone := rfl
@[simp] theorem openStep_k (rest : List Event) (s : State) : (openStep rest s).k = s.k := rfl
@[simp] theorem openStep_pat (rest : List Event) (s : State) : (openStep rest s).pat = s.pat := rfl
@[simp] theorem openStep_ones (rest : List Event) (s : State) : (openStep rest s).ones = s.ones := rfl
@[simp] theorem openStep_pulse (rest : List Event) (s : State) : (openStep rest s).pulse = s.pulse := rfl
@[simp] theorem openStep_ovf (rest : List Event) (s : State) : (openStep rest s).ovf = s.ovf := rfl
@[simp] theorem openStep_wrDone (rest : List Event) (s : State) : (openStep rest s).wrDone = s.wrDone := rfl
@[simp] theorem openStep_wrStatus (rest : List Event) (s : State) : (openStep rest s).wrStatus = s.wrStatus := rfl
@[simp] theorem openStep_wrCount (rest : List Event) (s : State) : (openStep rest s).wrCount = s.wrCount := rfl
@[simp] theorem openStep_msg (rest : List Event) (s : State) : (openStep rest s).msg = s.msg := rfl
@[simp] theorem openStep_rom (rest : List Event) (s : State) : (openStep rest s).rom = s.rom := rfl
@[simp] theorem openStep_q (rest : List Event) (s : State) : (openStep rest s).q = s.q := rfl
@[simp] theorem openStep_lock (rest : List Event) (s : State) : (openStep rest s).lock = s.lock := rfl
@[simp] theorem openStep_cancelWr (rest : List Event) (s : State) : (openStep rest s).cancelWr = s.cancelWr := rfl
@[simp] theorem openStep_cancelRd (rest : List Event) (s : State) : (openStep rest s).cancelRd = s.cancelRd := rfl
@[simp] theorem openStep_cfg (rest : List Event) (s : State) : (openStep rest s).cfg = s.cfg := rfl
@[simp] theorem openStep_events (rest : List Event) (s : State) : (openStep rest s).events = rest := rfl
@[simp] theorem openStep_out (rest : List Event) (s : State) : (openStep rest s).out = .none := rfl

/-! The fields of `complete s`. -/

@[simp] theorem complete_dotMs (s : State) : (complete s).dotMs = s.dotMs := rfl
@[simp] theorem complete_cfgWarn (s : State) : (complete s).cfgWarn = s.cfgWarn := rfl
@[simp] theorem complete_st (s : State) : (complete s).st = .idle := rfl
@[simp] theorem complete_wait (s : State) : (complete s).wait = s.wait := rfl
@[simp] theorem complete_idx (s : State) : (complete s).idx = s.idx := rfl
@[simp] theorem complete_len (s : State) : (complete s).len = s.len := rfl
@[simp] theorem complete_first (s : State) : (complete s).first = s.first := rfl
@[simp] theorem complete_bdone (s : State) : (complete s).bdone = s.bdone := rfl
@[simp] theorem complete_k (s : State) : (complete s).k = s.k := rfl
@[simp] theorem complete_pat (s : State) : (complete s).pat = s.pat := rfl
@[simp] theorem complete_ones (s : State) : (complete s).ones = s.ones := rfl
@[simp] theorem complete_pulse (s : State) : (complete s).pulse = s.pulse := rfl
@[simp] theorem complete_ovf (s : State) : (complete s).ovf = s.ovf := rfl
@[simp] theorem complete_wrDone (s : State) : (complete s).wrDone = true := rfl
@[simp] theorem complete_wrStatus (s : State) : (complete s).wrStatus = .ok := rfl
@[simp] theorem complete_wrCount (s : State) : (complete s).wrCount = s.len := rfl
@[simp] theorem complete_msg (s : State) : (complete s).msg = s.msg := rfl
@[simp] theorem complete_rom (s : State) : (complete s).rom = s.rom := rfl
@[simp] theorem complete_q (s : State) : (complete s).q = s.q := rfl
@[simp] theorem complete_lock (s : State) : (complete s).lock = s.lock := rfl
@[simp] theorem complete_cancelWr (s : State) : (complete s).cancelWr = s.cancelWr := rfl
@[simp] theorem complete_cancelRd (s : State) : (complete s).cancelRd = s.cancelRd := rfl
@[simp] theorem complete_cfg (s : State) : (complete s).cfg = s.cfg := rfl
@[simp] theorem complete_events (s : State) : (complete s).events = s.events := rfl
@[simp] theorem complete_out (s : State) : (complete s).out = s.out := rfl

/-! The fields of `acceptWrite m s`. -/

@[simp] theorem acceptWrite_dotMs (m : List Byte) (s : State) : (acceptWrite m s).dotMs = s.dotMs := rfl
@[simp] theorem acceptWrite_cfgWarn (m : List Byte) (s : State) : (acceptWrite m s).cfgWarn = s.cfgWarn := rfl
@[simp] theorem acceptWrite_st (m : List Byte) (s : State) : (acceptWrite m s).st = .fetch := rfl
@[simp] theorem acceptWrite_wait (m : List Byte) (s : State) : (acceptWrite m s).wait = 0#3 := rfl
@[simp] theorem acceptWrite_idx (m : List Byte) (s : State) : (acceptWrite m s).idx = 0 := rfl
@[simp] theorem acceptWrite_len (m : List Byte) (s : State) : (acceptWrite m s).len = m.length := rfl
@[simp] theorem acceptWrite_first (m : List Byte) (s : State) : (acceptWrite m s).first = true := rfl
@[simp] theorem acceptWrite_bdone (m : List Byte) (s : State) : (acceptWrite m s).bdone = false := rfl
@[simp] theorem acceptWrite_k (m : List Byte) (s : State) : (acceptWrite m s).k = s.k := rfl
@[simp] theorem acceptWrite_pat (m : List Byte) (s : State) : (acceptWrite m s).pat = s.pat := rfl
@[simp] theorem acceptWrite_ones (m : List Byte) (s : State) : (acceptWrite m s).ones = s.ones := rfl
@[simp] theorem acceptWrite_pulse (m : List Byte) (s : State) : (acceptWrite m s).pulse = s.pulse := rfl
@[simp] theorem acceptWrite_ovf (m : List Byte) (s : State) : (acceptWrite m s).ovf = s.ovf := rfl
@[simp] theorem acceptWrite_wrDone (m : List Byte) (s : State) : (acceptWrite m s).wrDone = false := rfl
@[simp] theorem acceptWrite_wrStatus (m : List Byte) (s : State) : (acceptWrite m s).wrStatus = s.wrStatus := rfl
@[simp] theorem acceptWrite_wrCount (m : List Byte) (s : State) : (acceptWrite m s).wrCount = s.wrCount := rfl
@[simp] theorem acceptWrite_msg (m : List Byte) (s : State) : (acceptWrite m s).msg = m := rfl
@[simp] theorem acceptWrite_rom (m : List Byte) (s : State) : (acceptWrite m s).rom = s.rom := rfl
@[simp] theorem acceptWrite_q (m : List Byte) (s : State) : (acceptWrite m s).q = s.q := rfl
@[simp] theorem acceptWrite_lock (m : List Byte) (s : State) : (acceptWrite m s).lock = s.lock := rfl
@[simp] theorem acceptWrite_cancelWr (m : List Byte) (s : State) : (acceptWrite m s).cancelWr = s.cancelWr := rfl
@[simp] theorem acceptWrite_cancelRd (m : List Byte) (s : State) : (acceptWrite m s).cancelRd = s.cancelRd := rfl
@[simp] theorem acceptWrite_cfg (m : List Byte) (s : State) : (acceptWrite m s).cfg = s.cfg := rfl
@[simp] theorem acceptWrite_events (m : List Byte) (s : State) : (acceptWrite m s).events = s.events := rfl
@[simp] theorem acceptWrite_out (m : List Byte) (s : State) : (acceptWrite m s).out = s.out := rfl

/-! The fields of `tick s`. -/

@[simp] theorem tick_dotMs (s : State) : (tick s).dotMs = s.dotMs := rfl
@[simp] theorem tick_cfgWarn (s : State) : (tick s).cfgWarn = s.cfgWarn := rfl
@[simp] theorem tick_st (s : State) : (tick s).st = s.st := rfl
@[simp] theorem tick_wait (s : State) : (tick s).wait = (if s.wait = 0#3 then 0#3 else s.wait - 1#3) := rfl
@[simp] theorem tick_idx (s : State) : (tick s).idx = s.idx := rfl
@[simp] theorem tick_len (s : State) : (tick s).len = s.len := rfl
@[simp] theorem tick_first (s : State) : (tick s).first = s.first := rfl
@[simp] theorem tick_bdone (s : State) : (tick s).bdone = s.bdone := rfl
@[simp] theorem tick_k (s : State) : (tick s).k = s.k := rfl
@[simp] theorem tick_pat (s : State) : (tick s).pat = s.pat := rfl
@[simp] theorem tick_ones (s : State) : (tick s).ones = s.ones := rfl
@[simp] theorem tick_pulse (s : State) : (tick s).pulse = s.pulse := rfl
@[simp] theorem tick_ovf (s : State) : (tick s).ovf = s.ovf := rfl
@[simp] theorem tick_wrDone (s : State) : (tick s).wrDone = s.wrDone := rfl
@[simp] theorem tick_wrStatus (s : State) : (tick s).wrStatus = s.wrStatus := rfl
@[simp] theorem tick_wrCount (s : State) : (tick s).wrCount = s.wrCount := rfl
@[simp] theorem tick_msg (s : State) : (tick s).msg = s.msg := rfl
@[simp] theorem tick_rom (s : State) : (tick s).rom = s.rom := rfl
@[simp] theorem tick_q (s : State) : (tick s).q = s.q := rfl
@[simp] theorem tick_lock (s : State) : (tick s).lock = s.lock := rfl
@[simp] theorem tick_cancelWr (s : State) : (tick s).cancelWr = s.cancelWr := rfl
@[simp] theorem tick_cancelRd (s : State) : (tick s).cancelRd = s.cancelRd := rfl
@[simp] theorem tick_cfg (s : State) : (tick s).cfg = s.cfg := rfl
@[simp] theorem tick_events (s : State) : (tick s).events = s.events := rfl
@[simp] theorem tick_out (s : State) : (tick s).out = .quantum s.pulse := rfl

/-! The fields of `takeInterrupted { who := .engine } s`. -/

@[simp] theorem takeInterrupted_engine_dotMs (s : State) : (takeInterrupted { who := .engine } s).dotMs = s.dotMs := rfl
@[simp] theorem takeInterrupted_engine_cfgWarn (s : State) : (takeInterrupted { who := .engine } s).cfgWarn = s.cfgWarn := rfl
@[simp] theorem takeInterrupted_engine_st (s : State) : (takeInterrupted { who := .engine } s).st = .idle := rfl
@[simp] theorem takeInterrupted_engine_wait (s : State) : (takeInterrupted { who := .engine } s).wait = 0#3 := rfl
@[simp] theorem takeInterrupted_engine_idx (s : State) : (takeInterrupted { who := .engine } s).idx = s.idx := rfl
@[simp] theorem takeInterrupted_engine_len (s : State) : (takeInterrupted { who := .engine } s).len = s.len := rfl
@[simp] theorem takeInterrupted_engine_first (s : State) : (takeInterrupted { who := .engine } s).first = s.first := rfl
@[simp] theorem takeInterrupted_engine_bdone (s : State) : (takeInterrupted { who := .engine } s).bdone = s.bdone := rfl
@[simp] theorem takeInterrupted_engine_k (s : State) : (takeInterrupted { who := .engine } s).k = s.k := rfl
@[simp] theorem takeInterrupted_engine_pat (s : State) : (takeInterrupted { who := .engine } s).pat = s.pat := rfl
@[simp] theorem takeInterrupted_engine_ones (s : State) : (takeInterrupted { who := .engine } s).ones = s.ones := rfl
@[simp] theorem takeInterrupted_engine_pulse (s : State) : (takeInterrupted { who := .engine } s).pulse = false := rfl
@[simp] theorem takeInterrupted_engine_ovf (s : State) : (takeInterrupted { who := .engine } s).ovf = s.ovf := rfl
@[simp] theorem takeInterrupted_engine_wrDone (s : State) : (takeInterrupted { who := .engine } s).wrDone = true := rfl
@[simp] theorem takeInterrupted_engine_wrStatus (s : State) : (takeInterrupted { who := .engine } s).wrStatus = .fault := rfl
@[simp] theorem takeInterrupted_engine_wrCount (s : State) : (takeInterrupted { who := .engine } s).wrCount = 0 := rfl
@[simp] theorem takeInterrupted_engine_msg (s : State) : (takeInterrupted { who := .engine } s).msg = s.msg := rfl
@[simp] theorem takeInterrupted_engine_rom (s : State) : (takeInterrupted { who := .engine } s).rom = s.rom := rfl
@[simp] theorem takeInterrupted_engine_q (s : State) : (takeInterrupted { who := .engine } s).q = s.q := rfl
@[simp] theorem takeInterrupted_engine_lock (s : State) : (takeInterrupted { who := .engine } s).lock = s.lock := rfl
@[simp] theorem takeInterrupted_engine_cancelWr (s : State) : (takeInterrupted { who := .engine } s).cancelWr = s.cancelWr := rfl
@[simp] theorem takeInterrupted_engine_cancelRd (s : State) : (takeInterrupted { who := .engine } s).cancelRd = s.cancelRd := rfl
@[simp] theorem takeInterrupted_engine_cfg (s : State) : (takeInterrupted { who := .engine } s).cfg = s.cfg := rfl
@[simp] theorem takeInterrupted_engine_events (s : State) : (takeInterrupted { who := .engine } s).events = s.events := rfl
@[simp] theorem takeInterrupted_engine_out (s : State) : (takeInterrupted { who := .engine } s).out = s.out := rfl

/-! The fields of `resetStep p s`. -/

@[simp] theorem resetStep_dotMs (p : ConfigPort) (s : State) : (resetStep p s).dotMs = configDotMs p := rfl
@[simp] theorem resetStep_cfgWarn (p : ConfigPort) (s : State) : (resetStep p s).cfgWarn = configWarn p := rfl
@[simp] theorem resetStep_st (p : ConfigPort) (s : State) : (resetStep p s).st = .idle := rfl
@[simp] theorem resetStep_wait (p : ConfigPort) (s : State) : (resetStep p s).wait = 0#3 := rfl
@[simp] theorem resetStep_idx (p : ConfigPort) (s : State) : (resetStep p s).idx = 0 := rfl
@[simp] theorem resetStep_len (p : ConfigPort) (s : State) : (resetStep p s).len = 0 := rfl
@[simp] theorem resetStep_first (p : ConfigPort) (s : State) : (resetStep p s).first = true := rfl
@[simp] theorem resetStep_bdone (p : ConfigPort) (s : State) : (resetStep p s).bdone = false := rfl
@[simp] theorem resetStep_k (p : ConfigPort) (s : State) : (resetStep p s).k = 0 := rfl
@[simp] theorem resetStep_pat (p : ConfigPort) (s : State) : (resetStep p s).pat = 0 := rfl
@[simp] theorem resetStep_ones (p : ConfigPort) (s : State) : (resetStep p s).ones = 0 := rfl
@[simp] theorem resetStep_pulse (p : ConfigPort) (s : State) : (resetStep p s).pulse = false := rfl
@[simp] theorem resetStep_ovf (p : ConfigPort) (s : State) : (resetStep p s).ovf = false := rfl
@[simp] theorem resetStep_wrDone (p : ConfigPort) (s : State) : (resetStep p s).wrDone = false := rfl
@[simp] theorem resetStep_wrStatus (p : ConfigPort) (s : State) : (resetStep p s).wrStatus = .ok := rfl
@[simp] theorem resetStep_wrCount (p : ConfigPort) (s : State) : (resetStep p s).wrCount = 0 := rfl
@[simp] theorem resetStep_msg (p : ConfigPort) (s : State) : (resetStep p s).msg = [] := rfl
@[simp] theorem resetStep_rom (p : ConfigPort) (s : State) : (resetStep p s).rom = s.rom := rfl
@[simp] theorem resetStep_q (p : ConfigPort) (s : State) : (resetStep p s).q = [] := rfl
@[simp] theorem resetStep_lock (p : ConfigPort) (s : State) : (resetStep p s).lock = .free := rfl
@[simp] theorem resetStep_cancelWr (p : ConfigPort) (s : State) : (resetStep p s).cancelWr = s.cancelWr := rfl
@[simp] theorem resetStep_cancelRd (p : ConfigPort) (s : State) : (resetStep p s).cancelRd = s.cancelRd := rfl
@[simp] theorem resetStep_cfg (p : ConfigPort) (s : State) : (resetStep p s).cfg = s.cfg := rfl
@[simp] theorem resetStep_events (p : ConfigPort) (s : State) : (resetStep p s).events = s.events := rfl
@[simp] theorem resetStep_out (p : ConfigPort) (s : State) : (resetStep p s).out = s.out := rfl

/-- Taking the reader's exception is a response and nothing else (60_exceptions R225). -/
@[simp] theorem takeInterrupted_reader (s : State) :
    takeInterrupted { who := .reader } s = respond { status := .fault, count := 0, data := [] } s := rfl

@[simp] theorem respondOk_eq (s : State) : respondOk s = respond { status := .ok, count := 0, data := [] } s := rfl

/-! The fields of `push c s`. -/

theorem push_q (c : Byte) (s : State) :
    (push c s).q = if s.q.length < s.cfg.queueCap then s.q ++ [c] else s.q := by
  unfold push; split <;> rfl

theorem push_ovf (c : Byte) (s : State) :
    (push c s).ovf = if s.q.length < s.cfg.queueCap then s.ovf else true := by
  unfold push; split <;> rfl

@[simp] theorem push_dotMs (c : Byte) (s : State) : (push c s).dotMs = s.dotMs := by unfold push; split <;> rfl
@[simp] theorem push_cfgWarn (c : Byte) (s : State) : (push c s).cfgWarn = s.cfgWarn := by unfold push; split <;> rfl
@[simp] theorem push_st (c : Byte) (s : State) : (push c s).st = s.st := by unfold push; split <;> rfl
@[simp] theorem push_wait (c : Byte) (s : State) : (push c s).wait = s.wait := by unfold push; split <;> rfl
@[simp] theorem push_idx (c : Byte) (s : State) : (push c s).idx = s.idx := by unfold push; split <;> rfl
@[simp] theorem push_len (c : Byte) (s : State) : (push c s).len = s.len := by unfold push; split <;> rfl
@[simp] theorem push_first (c : Byte) (s : State) : (push c s).first = s.first := by unfold push; split <;> rfl
@[simp] theorem push_bdone (c : Byte) (s : State) : (push c s).bdone = s.bdone := by unfold push; split <;> rfl
@[simp] theorem push_k (c : Byte) (s : State) : (push c s).k = s.k := by unfold push; split <;> rfl
@[simp] theorem push_pat (c : Byte) (s : State) : (push c s).pat = s.pat := by unfold push; split <;> rfl
@[simp] theorem push_ones (c : Byte) (s : State) : (push c s).ones = s.ones := by unfold push; split <;> rfl
@[simp] theorem push_pulse (c : Byte) (s : State) : (push c s).pulse = s.pulse := by unfold push; split <;> rfl
@[simp] theorem push_wrDone (c : Byte) (s : State) : (push c s).wrDone = s.wrDone := by unfold push; split <;> rfl
@[simp] theorem push_wrStatus (c : Byte) (s : State) : (push c s).wrStatus = s.wrStatus := by unfold push; split <;> rfl
@[simp] theorem push_wrCount (c : Byte) (s : State) : (push c s).wrCount = s.wrCount := by unfold push; split <;> rfl
@[simp] theorem push_msg (c : Byte) (s : State) : (push c s).msg = s.msg := by unfold push; split <;> rfl
@[simp] theorem push_rom (c : Byte) (s : State) : (push c s).rom = s.rom := by unfold push; split <;> rfl
@[simp] theorem push_lock (c : Byte) (s : State) : (push c s).lock = s.lock := by unfold push; split <;> rfl
@[simp] theorem push_cancelWr (c : Byte) (s : State) : (push c s).cancelWr = s.cancelWr := by unfold push; split <;> rfl
@[simp] theorem push_cancelRd (c : Byte) (s : State) : (push c s).cancelRd = s.cancelRd := by unfold push; split <;> rfl
@[simp] theorem push_cfg (c : Byte) (s : State) : (push c s).cfg = s.cfg := by unfold push; split <;> rfl
@[simp] theorem push_events (c : Byte) (s : State) : (push c s).events = s.events := by unfold push; split <;> rfl
@[simp] theorem push_out (c : Byte) (s : State) : (push c s).out = s.out := by unfold push; split <;> rfl

/-! The fields of `closeBatch s` other than `q` and `ovf`. -/

@[simp] theorem closeBatch_dotMs (s : State) : (closeBatch s).dotMs = s.dotMs := by unfold closeBatch; split <;> simp
@[simp] theorem closeBatch_cfgWarn (s : State) : (closeBatch s).cfgWarn = s.cfgWarn := by unfold closeBatch; split <;> simp
@[simp] theorem closeBatch_st (s : State) : (closeBatch s).st = s.st := by unfold closeBatch; split <;> simp
@[simp] theorem closeBatch_wait (s : State) : (closeBatch s).wait = s.wait := by unfold closeBatch; split <;> simp
@[simp] theorem closeBatch_idx (s : State) : (closeBatch s).idx = s.idx := by unfold closeBatch; split <;> simp
@[simp] theorem closeBatch_len (s : State) : (closeBatch s).len = s.len := by unfold closeBatch; split <;> simp
@[simp] theorem closeBatch_first (s : State) : (closeBatch s).first = s.first := by unfold closeBatch; split <;> simp
@[simp] theorem closeBatch_bdone (s : State) : (closeBatch s).bdone = s.bdone := by unfold closeBatch; split <;> simp
@[simp] theorem closeBatch_k (s : State) : (closeBatch s).k = s.k := by unfold closeBatch; split <;> simp
@[simp] theorem closeBatch_pat (s : State) : (closeBatch s).pat = s.pat := by unfold closeBatch; split <;> simp
@[simp] theorem closeBatch_ones (s : State) : (closeBatch s).ones = s.ones := by unfold closeBatch; split <;> simp
@[simp] theorem closeBatch_pulse (s : State) : (closeBatch s).pulse = s.pulse := by unfold closeBatch; split <;> simp
@[simp] theorem closeBatch_wrDone (s : State) : (closeBatch s).wrDone = s.wrDone := by unfold closeBatch; split <;> simp
@[simp] theorem closeBatch_wrStatus (s : State) : (closeBatch s).wrStatus = s.wrStatus := by unfold closeBatch; split <;> simp
@[simp] theorem closeBatch_wrCount (s : State) : (closeBatch s).wrCount = s.wrCount := by unfold closeBatch; split <;> simp
@[simp] theorem closeBatch_msg (s : State) : (closeBatch s).msg = s.msg := by unfold closeBatch; split <;> simp
@[simp] theorem closeBatch_rom (s : State) : (closeBatch s).rom = s.rom := by unfold closeBatch; split <;> simp
@[simp] theorem closeBatch_lock (s : State) : (closeBatch s).lock = s.lock := by unfold closeBatch; split <;> simp
@[simp] theorem closeBatch_cancelWr (s : State) : (closeBatch s).cancelWr = s.cancelWr := by unfold closeBatch; split <;> simp
@[simp] theorem closeBatch_cancelRd (s : State) : (closeBatch s).cancelRd = s.cancelRd := by unfold closeBatch; split <;> simp
@[simp] theorem closeBatch_cfg (s : State) : (closeBatch s).cfg = s.cfg := by unfold closeBatch; split <;> simp
@[simp] theorem closeBatch_events (s : State) : (closeBatch s).events = s.events := by unfold closeBatch; split <;> simp
@[simp] theorem closeBatch_out (s : State) : (closeBatch s).out = s.out := by unfold closeBatch; split <;> simp

end Sys2Proof.Machine
end

