-- ==== Sys2Proof/Laws/Ops.lean ====
section
/-! SUPPORT. For each shared operation, once, everything it can do. -/

namespace Sys2Proof.Machine

/-- `Acquire` either raises, when the agent's level is 1, or holds the lock and changes nothing else (20_memory R70). -/
theorem acquire_eq (who : Agent) (s : State) :
    acquire who s = if cancelLevel s who then .error { who := who } else .ok { s with lock := who.holding } := rfl

/-- `Push` appends below capacity and sets `ovf` at capacity (43_queue_and_reader R190). -/
theorem push_cases (c : Byte) (s : State) :
    (s.q.length < s.cfg.queueCap ∧ push c s = { s with q := s.q ++ [c] }) ∨
      (s.cfg.queueCap ≤ s.q.length ∧ push c s = { s with ovf := true }) := by
  unfold push
  split
  · exact .inl ⟨‹_›, rfl⟩
  · exact .inr ⟨by omega, rfl⟩

/-- `Push` does not look at the lock. -/
theorem push_lock_comm (c : Byte) (l : Lock) (s : State) :
    push c { s with lock := l } = { push c s with lock := l } := by
  unfold push
  by_cases h : s.q.length < s.cfg.queueCap <;> simp [h]

/-- `Enqueue` either raises or is one `Push` with the lock FREE afterwards (43_queue_and_reader R191). -/
theorem enqueue_eq (c : Byte) (s : State) :
    enqueue c s = if s.cancelWr then .error { who := .engine } else .ok (release (push c s)) := by
  by_cases h : s.cancelWr = true
  · simp [enqueue, acquire, cancelLevel, h]
  · have ha : acquire .engine s = .ok { s with lock := .engine } := if_neg h
    simp only [enqueue, ha, push_lock_comm, if_neg h]
    rfl

/-- What an `Enqueue` that does not raise leaves (43_queue_and_reader R191). -/
theorem enqueue_ok_iff (c : Byte) (s t : State) :
    enqueue c s = .ok t ↔ s.cancelWr = false ∧ t = release (push c s) := by
  rw [enqueue_eq]
  by_cases h : s.cancelWr = true <;> simp [h, eq_comm]

/-- A `Flush` of a run of 1 or 3 is an `Enqueue`, any other run changes nothing (40_pulse_generator R124). -/
theorem flush_cases (n : RunLength) (s : State) :
    (n = 1 ∧ flush n s = enqueue symDot s) ∨ (n = 3 ∧ flush n s = enqueue symDash s) ∨
      (n ≠ 1 ∧ n ≠ 3 ∧ flush n s = .ok s) := by
  unfold flush runSymbol
  by_cases h1 : n = 1
  · exact .inl ⟨h1, by simp [h1]⟩
  · by_cases h3 : n = 3
    · exact .inr (.inl ⟨h3, by simp [h3]⟩)
    · exact .inr (.inr ⟨h1, h3, by simp [h1, h3]⟩)

/-- The shift leaves a `W`-bit word (40_pulse_generator R126). -/
theorem shiftPattern_lt (c : Config) (p : Pattern) : shiftPattern c p < 2 ^ c.patWidth :=
  Nat.mod_lt _ (Nat.two_pow_pos _)

/-- What closing a batch does to the queue and to `ovf` (43_queue_and_reader R193, R194). -/
theorem closeBatch_cases (s : State) :
    (s.q ≠ [] ∧ s.q.getLast? ≠ some symNewline ∧ closeBatch s = push symNewline s) ∨
      ((s.q = [] ∨ s.q.getLast? = some symNewline) ∧ closeBatch s = s) := by
  unfold closeBatch
  split
  · exact .inl ⟨(‹_ ∧ _›).1, (‹_ ∧ _›).2, rfl⟩
  · refine .inr ⟨?_, rfl⟩
    by_contra h
    push Not at h
    exact ‹¬ _› h

/-- Closing a batch does not look at the lock. -/
theorem closeBatch_lock_comm (l : Lock) (s : State) :
    closeBatch { s with lock := l } = { closeBatch s with lock := l } := by
  unfold closeBatch
  by_cases h : s.q ≠ [] ∧ s.q.getLast? ≠ some symNewline <;> simp [h, push_lock_comm]

/-- `Drain` either raises or takes bytes from the head of the closed batch (43_queue_and_reader R193). -/
theorem drain_eq (max : Nat) (s : State) :
    drain max s = if s.cancelRd then .error { who := .reader }
      else .ok ((closeBatch s).q.take max, release { closeBatch s with q := (closeBatch s).q.drop max }) := by
  by_cases h : s.cancelRd = true
  · simp [drain, acquire, cancelLevel, h]
  · have ha : acquire .reader s = .ok { s with lock := .reader } := if_neg h
    simp only [drain, ha, closeBatch_lock_comm, if_neg h]
    rfl

/-- The rest of a step runs, or the exception is taken from the state before the step (60_exceptions R224). -/
theorem orInterrupted_cases (s : State) (r : Except Interrupted State) (rest : State → State) :
    (∃ s1, r = .ok s1 ∧ orInterrupted s r rest = .next (rest s1)) ∨
      (∃ x, r = .error x ∧ orInterrupted s r rest = .next (takeInterrupted x s)) := by
  cases r with
  | ok s1 => exact .inl ⟨s1, rfl, rfl⟩
  | error x => exact .inr ⟨x, rfl, rfl⟩

/-- A step that enqueues: the exception, or the rest after one `Push` (43_queue_and_reader R191, 60_exceptions R224). -/
theorem orInterrupted_enqueue (s : State) (c : Byte) (rest : State → State) :
    orInterrupted s (enqueue c s) rest =
      .next (if s.cancelWr then takeInterrupted { who := .engine } s else rest (release (push c s))) := by
  rw [enqueue_eq]
  by_cases h : s.cancelWr = true <;> simp [h, orInterrupted]

/-- The common letter step: its three cases and the exception (42_sequencer R173 to R175). -/
theorem letterStep_cases (kk : Fin 26) (s : State) :
    (s.first = true ∧ letterStep kk s = .next { s with k := kk, st := .load }) ∨
      (s.first = false ∧ s.bdone = true ∧
        letterStep kk s = .next { s with k := kk, wait := letterGapResidual, st := .load }) ∨
      (s.first = false ∧ s.bdone = false ∧
        letterStep kk s = .next (if s.cancelWr then takeInterrupted { who := .engine } s
          else { release (push symSpace s) with k := kk, wait := letterGapResidual, st := .load })) := by
  unfold letterStep
  rw [orInterrupted_enqueue]
  by_cases hf : s.first = true <;> by_cases hb : s.bdone = true <;> simp [hf, hb]

/-- The meaning of a letter instruction is the common step at its table index (41_letters R140 to R165). -/
theorem exec_letterInstr (k : Fin 26) (lower : Bool) (s : State) : exec (letterInstr k lower) s = letterStep k s := by
  fin_cases k <;> rfl

end Sys2Proof.Machine
end

