-- ==== Sys2Proof/Laws/Memory.lean ====
section
/-! SUPPORT. Every memory operation keeps the form of the memories (`Memory.wf`), and the reset state has it. -/

namespace Sys2Proof.Machine

theorem Memory_wf_iff (s : State) :
    Memory.wf s = true ↔ s.msg.length = s.len ∧ s.q.length ≤ s.cfg.queueCap ∧ s.q.all isSymbol = true := by
  simp [Memory.wf, and_assoc]

theorem reset_memory_wf : Memory.wf State.reset = true := by decide

/-- The form depends on the memories, `len` and the capacity only. -/
theorem memory_wf_congr (s t : State) (hm : t.msg = s.msg) (hl : t.len = s.len) (hq : t.q = s.q) (hc : t.cfg = s.cfg)
    (h : Memory.wf s = true) : Memory.wf t = true := by
  rw [Memory_wf_iff] at *
  rw [hm, hl, hq, hc]
  exact h

theorem push_keeps_memory_wf (c : Byte) (s : State) (hc : isSymbol c = true) (h : Memory.wf s = true) :
    Memory.wf (push c s) = true := by
  rw [Memory_wf_iff] at *
  obtain ⟨hm, hq, ha⟩ := h
  rcases push_cases c s with ⟨hlt, heq⟩ | ⟨_, heq⟩
  · rw [heq]
    refine ⟨hm, ?_, ?_⟩
    · simpa using hlt
    · simp only [List.all_append, ha, Bool.true_and]
      simpa using hc
  · rw [heq]
    exact ⟨hm, hq, ha⟩

theorem release_keeps_memory_wf (s : State) (h : Memory.wf s = true) : Memory.wf (release s) = true :=
  memory_wf_congr s _ rfl rfl rfl rfl h

theorem enqueue_keeps_memory_wf (c : Byte) (s t : State) (hc : isSymbol c = true) (h : Memory.wf s = true)
    (he : enqueue c s = .ok t) : Memory.wf t = true := by
  obtain ⟨-, rfl⟩ := (enqueue_ok_iff c s t).1 he
  exact release_keeps_memory_wf _ (push_keeps_memory_wf c s hc h)

theorem closeBatch_keeps_memory_wf (s : State) (h : Memory.wf s = true) : Memory.wf (closeBatch s) = true := by
  rcases closeBatch_cases s with ⟨-, -, heq⟩ | ⟨-, heq⟩
  · rw [heq]
    exact push_keeps_memory_wf _ _ rfl h
  · rwa [heq]

theorem drain_keeps_memory_wf (max : Nat) (s t : State) (out : List Byte) (h : Memory.wf s = true)
    (hd : drain max s = .ok (out, t)) : Memory.wf t = true := by
  rw [drain_eq] at hd
  split at hd
  · cases hd
  · obtain ⟨-, rfl⟩ := Prod.mk.inj (Except.ok.inj hd)
    have hb := closeBatch_keeps_memory_wf s h
    rw [Memory_wf_iff] at *
    obtain ⟨hm, hq, ha⟩ := hb
    refine ⟨hm, ?_, ?_⟩
    · simp only [release_q, release_cfg, List.length_drop]
      omega
    · simp only [release_q, List.all_eq_true] at *
      exact fun x hx => ha x (List.mem_of_mem_drop hx)

theorem acceptWrite_keeps_memory_wf (m : List Byte) (s : State) (h : Memory.wf s = true) :
    Memory.wf (acceptWrite m s) = true := by
  rw [Memory_wf_iff] at *
  exact ⟨rfl, h.2⟩

theorem resetStep_has_memory_wf (p : ConfigPort) (s : State) : Memory.wf (resetStep p s) = true := by
  rw [Memory_wf_iff]
  exact ⟨rfl, Nat.zero_le _, rfl⟩

end Sys2Proof.Machine
end

