-- ==== Sys2Proof/Laws/PerInstr.lean ====
section
/-! SUPPORT. Statements about every instruction as syntax, one lemma per constructor. -/

namespace Sys2Proof.Laws.EncodesInItsFormat

/-- The encoding of an instruction is of the format its row of spec/opcode_table.json names. -/
def Statement (i : Instr) : Prop := ∀ c : Config, (encode c i).format = i.format

theorem letterA (lower : Bool) : Statement (.letterA lower) := fun _ => rfl
theorem letterB (lower : Bool) : Statement (.letterB lower) := fun _ => rfl
theorem letterC (lower : Bool) : Statement (.letterC lower) := fun _ => rfl
theorem letterD (lower : Bool) : Statement (.letterD lower) := fun _ => rfl
theorem letterE (lower : Bool) : Statement (.letterE lower) := fun _ => rfl
theorem letterF (lower : Bool) : Statement (.letterF lower) := fun _ => rfl
theorem letterG (lower : Bool) : Statement (.letterG lower) := fun _ => rfl
theorem letterH (lower : Bool) : Statement (.letterH lower) := fun _ => rfl
theorem letterI (lower : Bool) : Statement (.letterI lower) := fun _ => rfl
theorem letterJ (lower : Bool) : Statement (.letterJ lower) := fun _ => rfl
theorem letterK (lower : Bool) : Statement (.letterK lower) := fun _ => rfl
theorem letterL (lower : Bool) : Statement (.letterL lower) := fun _ => rfl
theorem letterM (lower : Bool) : Statement (.letterM lower) := fun _ => rfl
theorem letterN (lower : Bool) : Statement (.letterN lower) := fun _ => rfl
theorem letterO (lower : Bool) : Statement (.letterO lower) := fun _ => rfl
theorem letterP (lower : Bool) : Statement (.letterP lower) := fun _ => rfl
theorem letterQ (lower : Bool) : Statement (.letterQ lower) := fun _ => rfl
theorem letterR (lower : Bool) : Statement (.letterR lower) := fun _ => rfl
theorem letterS (lower : Bool) : Statement (.letterS lower) := fun _ => rfl
theorem letterT (lower : Bool) : Statement (.letterT lower) := fun _ => rfl
theorem letterU (lower : Bool) : Statement (.letterU lower) := fun _ => rfl
theorem letterV (lower : Bool) : Statement (.letterV lower) := fun _ => rfl
theorem letterW (lower : Bool) : Statement (.letterW lower) := fun _ => rfl
theorem letterX (lower : Bool) : Statement (.letterX lower) := fun _ => rfl
theorem letterY (lower : Bool) : Statement (.letterY lower) := fun _ => rfl
theorem letterZ (lower : Bool) : Statement (.letterZ lower) := fun _ => rfl
theorem sep (b : Byte) : Statement (.sep b) := fun _ => rfl
theorem ign (b : Byte) : Statement (.ign b) := fun _ => rfl
theorem endMsg : Statement (.endMsg) := fun _ => rfl
theorem sep2 : Statement (.sep2) := fun _ => rfl
theorem next : Statement (.next) := fun _ => rfl
theorem load : Statement (.load) := fun _ => rfl
theorem finSel : Statement (.finSel) := fun _ => rfl
theorem bit1 (rest : Nat) : Statement (.bit1 rest) := fun _ => rfl
theorem bit0 (rest : Nat) : Statement (.bit0 rest) := fun _ => rfl
theorem shift : Statement (.shift) := fun _ => rfl
theorem fin : Statement (.fin) := fun _ => rfl
theorem flushDot : Statement (.flushDot) := fun _ => rfl
theorem flushDash : Statement (.flushDash) := fun _ => rfl
theorem flushNone (n : RunLength) : Statement (.flushNone n) := fun _ => rfl
theorem nop : Statement (.nop) := fun _ => rfl
theorem write (message : List Byte) : Statement (.write message) := fun _ => rfl
theorem read (maxCount : Nat) : Statement (.read maxCount) := fun _ => rfl
theorem clrOvf : Statement (.clrOvf) := fun _ => rfl
theorem rsv4to7 (low : BitVec 2) : Statement (.rsv4to7 low) := fun _ => rfl

end Sys2Proof.Laws.EncodesInItsFormat
end

