-- ==== Sys2Proof/Laws/Safety.lean ====
section
/-! SUPPORT. What the words of Safety.lean do to each field: one lemma per field per update. -/

namespace Sys2Proof.Machine

/-! The fields of `enqueued c s`: all but the queue, `ovf` and the lock are those of `s`. -/

@[simp] theorem enqueued_dotMs (c : Byte) (s : State) : (enqueued c s).dotMs = s.dotMs := rfl
@[simp] theorem enqueued_cfgWarn (c : Byte) (s : State) : (enqueued c s).cfgWarn = s.cfgWarn := rfl
@[simp] theorem enqueued_st (c : Byte) (s : State) : (enqueued c s).st = s.st := rfl
@[simp] theorem enqueued_wait (c : Byte) (s : State) : (enqueued c s).wait = s.wait := rfl
@[simp] theorem enqueued_idx (c : Byte) (s : State) : (enqueued c s).idx = s.idx := rfl
@[simp] theorem enqueued_len (c : Byte) (s : State) : (enqueued c s).len = s.len := rfl
@[simp] theorem enqueued_first (c : Byte) (s : State) : (enqueued c s).first = s.first := rfl
@[simp] theorem enqueued_bdone (c : Byte) (s : State) : (enqueued c s).bdone = s.bdone := rfl
@[simp] theorem enqueued_k (c : Byte) (s : State) : (enqueued c s).k = s.k := rfl
@[simp] theorem enqueued_pat (c : Byte) (s : State) : (enqueued c s).pat = s.pat := rfl
@[simp] theorem enqueued_ones (c : Byte) (s : State) : (enqueued c s).ones = s.ones := rfl
@[simp] theorem enqueued_pulse (c : Byte) (s : State) : (enqueued c s).pulse = s.pulse := rfl
@[simp] theorem enqueued_wrDone (c : Byte) (s : State) : (enqueued c s).wrDone = s.wrDone := rfl
@[simp] theorem enqueued_wrStatus (c : Byte) (s : State) : (enqueued c s).wrStatus = s.wrStatus := rfl
@[simp] theorem enqueued_wrCount (c : Byte) (s : State) : (enqueued c s).wrCount = s.wrCount := rfl
@[simp] theorem enqueued_msg (c : Byte) (s : State) : (enqueued c s).msg = s.msg := rfl
@[simp] theorem enqueued_rom (c : Byte) (s : State) : (enqueued c s).rom = s.rom := rfl
@[simp] theorem enqueued_cancelWr (c : Byte) (s : State) : (enqueued c s).cancelWr = s.cancelWr := rfl
@[simp] theorem enqueued_cancelRd (c : Byte) (s : State) : (enqueued c s).cancelRd = s.cancelRd := rfl
@[simp] theorem enqueued_cfg (c : Byte) (s : State) : (enqueued c s).cfg = s.cfg := rfl
@[simp] theorem enqueued_events (c : Byte) (s : State) : (enqueued c s).events = s.events := rfl
@[simp] theorem enqueued_out (c : Byte) (s : State) : (enqueued c s).out = s.out := rfl
@[simp] theorem enqueued_lock (c : Byte) (s : State) : (enqueued c s).lock = .free := rfl
theorem enqueued_q (c : Byte) (s : State) :
    (enqueued c s).q = if s.q.length < s.cfg.queueCap then s.q ++ [c] else s.q := rfl
theorem enqueued_ovf (c : Byte) (s : State) :
    (enqueued c s).ovf = if s.q.length < s.cfg.queueCap then s.ovf else true := rfl

/-- A flush is one enqueue or nothing (30_encoding R100). -/
theorem flushed_cases (n : RunLength) (s : State) :
    (n = 1 ∧ flushed n s = enqueued symDot s) ∨ (n = 3 ∧ flushed n s = enqueued symDash s) ∨
      (n ≠ 1 ∧ n ≠ 3 ∧ flushed n s = s) := by
  unfold flushed
  by_cases h1 : n = 1
  · exact .inl ⟨h1, if_pos h1⟩
  · by_cases h3 : n = 3
    · exact .inr (.inl ⟨h3, by simp [h3]⟩)
    · exact .inr (.inr ⟨h1, h3, by simp [h1, h3]⟩)

/-! The fields of `flushed n s`: all but the queue, `ovf` and the lock are those of `s`. -/

@[simp] theorem flushed_dotMs (n : RunLength) (s : State) : (flushed n s).dotMs = s.dotMs := by
  rcases flushed_cases n s with ⟨-, h⟩ | ⟨-, h⟩ | ⟨-, -, h⟩ <;> rw [h] <;> rfl
@[simp] theorem flushed_cfgWarn (n : RunLength) (s : State) : (flushed n s).cfgWarn = s.cfgWarn := by
  rcases flushed_cases n s with ⟨-, h⟩ | ⟨-, h⟩ | ⟨-, -, h⟩ <;> rw [h] <;> rfl
@[simp] theorem flushed_st (n : RunLength) (s : State) : (flushed n s).st = s.st := by
  rcases flushed_cases n s with ⟨-, h⟩ | ⟨-, h⟩ | ⟨-, -, h⟩ <;> rw [h] <;> rfl
@[simp] theorem flushed_wait (n : RunLength) (s : State) : (flushed n s).wait = s.wait := by
  rcases flushed_cases n s with ⟨-, h⟩ | ⟨-, h⟩ | ⟨-, -, h⟩ <;> rw [h] <;> rfl
@[simp] theorem flushed_idx (n : RunLength) (s : State) : (flushed n s).idx = s.idx := by
  rcases flushed_cases n s with ⟨-, h⟩ | ⟨-, h⟩ | ⟨-, -, h⟩ <;> rw [h] <;> rfl
@[simp] theorem flushed_len (n : RunLength) (s : State) : (flushed n s).len = s.len := by
  rcases flushed_cases n s with ⟨-, h⟩ | ⟨-, h⟩ | ⟨-, -, h⟩ <;> rw [h] <;> rfl
@[simp] theorem flushed_first (n : RunLength) (s : State) : (flushed n s).first = s.first := by
  rcases flushed_cases n s with ⟨-, h⟩ | ⟨-, h⟩ | ⟨-, -, h⟩ <;> rw [h] <;> rfl
@[simp] theorem flushed_bdone (n : RunLength) (s : State) : (flushed n s).bdone = s.bdone := by
  rcases flushed_cases n s with ⟨-, h⟩ | ⟨-, h⟩ | ⟨-, -, h⟩ <;> rw [h] <;> rfl
@[simp] theorem flushed_k (n : RunLength) (s : State) : (flushed n s).k = s.k := by
  rcases flushed_cases n s with ⟨-, h⟩ | ⟨-, h⟩ | ⟨-, -, h⟩ <;> rw [h] <;> rfl
@[simp] theorem flushed_pat (n : RunLength) (s : State) : (flushed n s).pat = s.pat := by
  rcases flushed_cases n s with ⟨-, h⟩ | ⟨-, h⟩ | ⟨-, -, h⟩ <;> rw [h] <;> rfl
@[simp] theorem flushed_ones (n : RunLength) (s : State) : (flushed n s).ones = s.ones := by
  rcases flushed_cases n s with ⟨-, h⟩ | ⟨-, h⟩ | ⟨-, -, h⟩ <;> rw [h] <;> rfl
@[simp] theorem flushed_pulse (n : RunLength) (s : State) : (flushed n s).pulse = s.pulse := by
  rcases flushed_cases n s with ⟨-, h⟩ | ⟨-, h⟩ | ⟨-, -, h⟩ <;> rw [h] <;> rfl
@[simp] theorem flushed_wrDone (n : RunLength) (s : State) : (flushed n s).wrDone = s.wrDone := by
  rcases flushed_cases n s with ⟨-, h⟩ | ⟨-, h⟩ | ⟨-, -, h⟩ <;> rw [h] <;> rfl
@[simp] theorem flushed_wrStatus (n : RunLength) (s : State) : (flushed n s).wrStatus = s.wrStatus := by
  rcases flushed_cases n s with ⟨-, h⟩ | ⟨-, h⟩ | ⟨-, -, h⟩ <;> rw [h] <;> rfl
@[simp] theorem flushed_wrCount (n : RunLength) (s : State) : (flushed n s).wrCount = s.wrCount := by
  rcases flushed_cases n s with ⟨-, h⟩ | ⟨-, h⟩ | ⟨-, -, h⟩ <;> rw [h] <;> rfl
@[simp] theorem flushed_msg (n : RunLength) (s : State) : (flushed n s).msg = s.msg := by
  rcases flushed_cases n s with ⟨-, h⟩ | ⟨-, h⟩ | ⟨-, -, h⟩ <;> rw [h] <;> rfl
@[simp] theorem flushed_rom (n : RunLength) (s : State) : (flushed n s).rom = s.rom := by
  rcases flushed_cases n s with ⟨-, h⟩ | ⟨-, h⟩ | ⟨-, -, h⟩ <;> rw [h] <;> rfl
@[simp] theorem flushed_cancelWr (n : RunLength) (s : State) : (flushed n s).cancelWr = s.cancelWr := by
  rcases flushed_cases n s with ⟨-, h⟩ | ⟨-, h⟩ | ⟨-, -, h⟩ <;> rw [h] <;> rfl
@[simp] theorem flushed_cancelRd (n : RunLength) (s : State) : (flushed n s).cancelRd = s.cancelRd := by
  rcases flushed_cases n s with ⟨-, h⟩ | ⟨-, h⟩ | ⟨-, -, h⟩ <;> rw [h] <;> rfl
@[simp] theorem flushed_cfg (n : RunLength) (s : State) : (flushed n s).cfg = s.cfg := by
  rcases flushed_cases n s with ⟨-, h⟩ | ⟨-, h⟩ | ⟨-, -, h⟩ <;> rw [h] <;> rfl
@[simp] theorem flushed_events (n : RunLength) (s : State) : (flushed n s).events = s.events := by
  rcases flushed_cases n s with ⟨-, h⟩ | ⟨-, h⟩ | ⟨-, -, h⟩ <;> rw [h] <;> rfl
@[simp] theorem flushed_out (n : RunLength) (s : State) : (flushed n s).out = s.out := by
  rcases flushed_cases n s with ⟨-, h⟩ | ⟨-, h⟩ | ⟨-, -, h⟩ <;> rw [h] <;> rfl

/-! The fields of `engineFaulted s` (60_exceptions R224). -/

@[simp] theorem engineFaulted_dotMs (s : State) : (engineFaulted s).dotMs = s.dotMs := rfl
@[simp] theorem engineFaulted_cfgWarn (s : State) : (engineFaulted s).cfgWarn = s.cfgWarn := rfl
@[simp] theorem engineFaulted_st (s : State) : (engineFaulted s).st = .idle := rfl
@[simp] theorem engineFaulted_wait (s : State) : (engineFaulted s).wait = 0#3 := rfl
@[simp] theorem engineFaulted_idx (s : State) : (engineFaulted s).idx = s.idx := rfl
@[simp] theorem engineFaulted_len (s : State) : (engineFaulted s).len = s.len := rfl
@[simp] theorem engineFaulted_first (s : State) : (engineFaulted s).first = s.first := rfl
@[simp] theorem engineFaulted_bdone (s : State) : (engineFaulted s).bdone = s.bdone := rfl
@[simp] theorem engineFaulted_k (s : State) : (engineFaulted s).k = s.k := rfl
@[simp] theorem engineFaulted_pat (s : State) : (engineFaulted s).pat = s.pat := rfl
@[simp] theorem engineFaulted_ones (s : State) : (engineFaulted s).ones = s.ones := rfl
@[simp] theorem engineFaulted_pulse (s : State) : (engineFaulted s).pulse = false := rfl
@[simp] theorem engineFaulted_ovf (s : State) : (engineFaulted s).ovf = s.ovf := rfl
@[simp] theorem engineFaulted_wrDone (s : State) : (engineFaulted s).wrDone = true := rfl
@[simp] theorem engineFaulted_wrStatus (s : State) : (engineFaulted s).wrStatus = .fault := rfl
@[simp] theorem engineFaulted_wrCount (s : State) : (engineFaulted s).wrCount = 0 := rfl
@[simp] theorem engineFaulted_msg (s : State) : (engineFaulted s).msg = s.msg := rfl
@[simp] theorem engineFaulted_rom (s : State) : (engineFaulted s).rom = s.rom := rfl
@[simp] theorem engineFaulted_q (s : State) : (engineFaulted s).q = s.q := rfl
@[simp] theorem engineFaulted_lock (s : State) : (engineFaulted s).lock = s.lock := rfl
@[simp] theorem engineFaulted_cancelWr (s : State) : (engineFaulted s).cancelWr = s.cancelWr := rfl
@[simp] theorem engineFaulted_cancelRd (s : State) : (engineFaulted s).cancelRd = s.cancelRd := rfl
@[simp] theorem engineFaulted_cfg (s : State) : (engineFaulted s).cfg = s.cfg := rfl
@[simp] theorem engineFaulted_events (s : State) : (engineFaulted s).events = s.events := rfl
@[simp] theorem engineFaulted_out (s : State) : (engineFaulted s).out = s.out := rfl

end Sys2Proof.Machine
end

