-- ==== Sys2Proof/Laws/Step.lean ====
section
/-! SUPPORT. What one step can be, said once. -/

namespace Sys2Proof.Machine

/-- With no script the block takes its own turn (00_scope R9). -/
theorem step_of_no_events (s : State) (h : s.events = []) : step s = blockTurn (openStep [] s) := by
  simp only [step, h]

/-- With a script the step is the turn its first entry gives (00_scope R9). -/
theorem step_of_event (s : State) (e : Event) (rest : List Event) (h : s.events = e :: rest) :
    step s = eventTurn e (openStep rest s) := by
  simp only [step, h]

/-- A block turn is a `TICK` exactly when no engine step is enabled (00_scope R9 (2)). -/
theorem blockTurn_tick (s : State) (h : engineEnabled s = false) : blockTurn s = .next (tick s) := by
  simp [blockTurn, h]

/-- A block turn with an engine step enabled runs what is fetched (00_scope R9 (1)). -/
theorem blockTurn_engine (s : State) (x : Selector) (i : Instr) (h : engineEnabled s = true) (hf : fetch s = .ok x)
    (hd : decode s.cfg x = .ok i) : blockTurn s = exec i s := by
  simp [blockTurn, h, hf, runSelector, hd]

/-- An engine step is enabled exactly when `st ≠ IDLE` and `wait = 0` (00_scope R9 (1)). -/
theorem engineEnabled_iff (s : State) : engineEnabled s = true ↔ s.st ≠ .idle ∧ s.wait = 0#3 := by
  simp [engineEnabled, busy]

/-- A step that may raise answers a next state either way (60_exceptions R224). -/
theorem orInterrupted_next (s : State) (r : Except Interrupted State) (rest : State → State) :
    ∃ t, orInterrupted s r rest = .next t := by
  cases r <;> exact ⟨_, rfl⟩

theorem letterStep_next (k : Fin 26) (s : State) : ∃ t, letterStep k s = .next t := by
  rcases letterStep_cases k s with h | h | h
  · exact ⟨_, h.2⟩
  · exact ⟨_, h.2.2⟩
  · exact ⟨_, h.2.2⟩

theorem execSep_next (s : State) : ∃ t, execSep s = .next t := by
  unfold execSep
  split
  · exact ⟨_, rfl⟩
  · split
    · exact ⟨_, rfl⟩
    · split
      · exact orInterrupted_next _ _ _
      · exact ⟨_, rfl⟩

theorem execWrite_next (m : List Byte) (s : State) : ∃ t, execWrite m s = .next t := by
  unfold execWrite
  split <;> exact ⟨_, rfl⟩

theorem execRead_next (n : Nat) (s : State) : ∃ t, execRead n s = .next t := by
  unfold execRead
  split <;> exact ⟨_, rfl⟩

/-- No instruction stops: every one answers a next state (30_encoding R105). -/
theorem exec_next (i : Instr) (s : State) : ∃ t, exec i s = .next t := by
  cases i with
  | sep => exact execSep_next s
  | write m => exact execWrite_next m s
  | read n => exact execRead_next n s
  | sep2 | bit0 | fin | flushDot | flushDash => exact orInterrupted_next _ _ _
  | ign | endMsg | next | load | finSel | bit1 | shift | flushNone | nop | clrOvf | rsv4to7 => exact ⟨_, rfl⟩
  | _ => exact letterStep_next _ s

end Sys2Proof.Machine
end

