-- ==== Sys2Proof/Laws/Rows.lean ====
section
/-! SUPPORT. What one step can do, said once: the engine's transition table (42_sequencer R186), the host commands, and the
steps that are neither. Later proofs case on these rows instead of unfolding the step. -/

namespace Sys2Proof.Machine

/-- An uncancelled enqueue, written out (43_queue_and_reader R190, R191). -/
theorem release_push_eq (c : Byte) (s : State) : release (push c s) = enqueued c s := by
  unfold release push enqueued
  by_cases h : s.q.length < s.cfg.queueCap <;> simp [h]

/-- Taking the engine's exception, written out (60_exceptions R224). -/
theorem takeInterrupted_engine_eq (s : State) : takeInterrupted { who := .engine } s = engineFaulted s := rfl

/-- A flush is the exception when it would enqueue while cancelled, else the table of 30_encoding R100. -/
theorem flush_eq (n : RunLength) (s : State) :
    flush n s = if s.cancelWr = true ∧ (n = 1 ∨ n = 3) then .error { who := .engine } else .ok (flushed n s) := by
  rcases flush_cases n s with ⟨rfl, h⟩ | ⟨rfl, h⟩ | ⟨h1, h3, h⟩
  · rw [h, enqueue_eq]
    by_cases hc : s.cancelWr = true <;> simp [hc, release_push_eq, flushed]
  · rw [h, enqueue_eq]
    by_cases hc : s.cancelWr = true <;> simp [hc, release_push_eq, flushed]
  · rw [h]
    simp [flushed, h1, h3]

/-- The drain's batch, written out (43_queue_and_reader R193, R194). -/
theorem closeBatch_q (s : State) : (closeBatch s).q = closedQueue s := by
  unfold closedQueue
  rcases closeBatch_cases s with ⟨h1, h2, h⟩ | ⟨h1 | h1, h⟩
  · by_cases hc : s.q.length < s.cfg.queueCap
    · have hn : ¬ s.cfg.queueCap ≤ s.q.length := by omega
      simp [h, push_q, h1, h2, hc, hn]
    · have hn : s.cfg.queueCap ≤ s.q.length := by omega
      simp [h, push_q, h1, h2, hc, hn]
  · simp [h, h1]
  · simp [h, h1]

/-- `ovf` after the drain's newline, written out (43_queue_and_reader R193, R194 (f)). -/
theorem closeBatch_ovf (s : State) : (closeBatch s).ovf = closedOvf s := by
  unfold closedOvf
  rcases closeBatch_cases s with ⟨h1, h2, h⟩ | ⟨h1 | h1, h⟩
  · by_cases hc : s.q.length < s.cfg.queueCap
    · have hn : ¬ s.cfg.queueCap ≤ s.q.length := by omega
      simp [h, push_ovf, h1, h2, hc, hn]
    · have hn : s.cfg.queueCap ≤ s.q.length := by omega
      simp [h, push_ovf, h1, h2, hc, hn]
  · simp [h, h1]
  · simp [h, h1]

/-- The engine's transitions: the rows of 42_sequencer R186, and the exception. -/
inductive EngineRow (s : State) : State → Prop
  | complete (h : s.st = .fetch) : EngineRow s (complete s)
  | firstLetter (kk : Fin 26) (h : s.st = .fetch) (hi : s.idx < s.len) (hf : s.first = true) :
      EngineRow s { s with k := kk, st := .load }
  | boundaryLetter (kk : Fin 26) (h : s.st = .fetch) (hi : s.idx < s.len) (hf : s.first = false) (hb : s.bdone = true) :
      EngineRow s { s with k := kk, wait := 2#3, st := .load }
  | wordLetter (kk : Fin 26) (h : s.st = .fetch) (hi : s.idx < s.len) (hf : s.first = false) (hb : s.bdone = false)
      (hc : s.cancelWr = false) : EngineRow s { enqueued symSpace s with k := kk, wait := 2#3, st := .load }
  | skip (h : s.st = .fetch) (hi : s.idx < s.len) : EngineRow s { s with st := .next }
  | opening (h : s.st = .fetch) (hi : s.idx < s.len) (hf : s.first = false) (hb : s.bdone = false)
      (hl : letterFollows s s.idx = true) (hc : s.cancelWr = false) :
      EngineRow s { enqueued symSpace s with st := .sep2 }
  | sep2 (h : s.st = .sep2) (hc : s.cancelWr = false) :
      EngineRow s { enqueued symSpace s with bdone := true, wait := 4#3, st := .next }
  | load (h : s.st = .load) :
      EngineRow s { s with pat := readRom s s.k, ones := 0, first := false, bdone := false, st := .bit }
  | finSel (h : s.st = .bit) (hp : s.pat = 0) : EngineRow s { s with st := .fin }
  | bit1 (h : s.st = .bit) (hp : s.pat ≠ 0) (hm : s.pat.testBit (s.cfg.patWidth - 1) = true) :
      EngineRow s { s with pulse := true, ones := s.ones + 1, wait := 1#3, st := .shift }
  | bit0 (h : s.st = .bit) (hp : s.pat ≠ 0) (hm : s.pat.testBit (s.cfg.patWidth - 1) = false) (hc : ¬(s.cancelWr = true ∧ (s.ones = 1 ∨ s.ones = 3))) :
      EngineRow s { flushed s.ones s with pulse := false, ones := 0, wait := 1#3, st := .shift }
  | shift (h : s.st = .shift) : EngineRow s { s with pat := shiftPattern s.cfg s.pat, st := .bit }
  | fin (h : s.st = .fin) (hc : ¬(s.cancelWr = true ∧ (s.ones = 1 ∨ s.ones = 3))) :
      EngineRow s { flushed s.ones s with pulse := false, wait := 1#3, st := .next }
  | next (h : s.st = .next) : EngineRow s { s with idx := s.idx + 1, st := .fetch }
  | fault (h : s.st ≠ .idle) (hc : s.cancelWr = true) : EngineRow s (engineFaulted s)

theorem next_inj {s t : State} (h : (Host.Outcome.next s : Result) = .next t) : t = s := by
  cases h; rfl

/-- A letter's step is one of its rows. -/
theorem letterStep_row (kk : Fin 26) (s t : State) (h : s.st = .fetch) (hi : s.idx < s.len)
    (ht : letterStep kk s = .next t) : EngineRow s t := by
  rcases letterStep_cases kk s with ⟨hf, he⟩ | ⟨hf, hb, he⟩ | ⟨hf, hb, he⟩
  · obtain rfl := next_inj (he.symm.trans ht)
    exact .firstLetter kk h hi hf
  · obtain rfl := next_inj (he.symm.trans ht)
    exact .boundaryLetter kk h hi hf hb
  · obtain rfl := next_inj (he.symm.trans ht)
    by_cases hc : s.cancelWr = true
    · rw [if_pos hc]
      exact .fault (by simp [h]) hc
    · rw [if_neg hc, release_push_eq]
      exact .wordLetter kk h hi hf hb (by simpa using hc)

/-- A separator's step is one of its rows. -/
theorem execSep_row (s t : State) (h : s.st = .fetch) (hi : s.idx < s.len) (ht : execSep s = .next t) :
    EngineRow s t := by
  unfold execSep at ht
  rw [orInterrupted_enqueue] at ht
  by_cases hf : s.first = true
  · rw [if_pos hf] at ht
    obtain rfl := next_inj ht
    exact .skip h hi
  by_cases hb : s.bdone = true
  · rw [if_neg hf, if_pos hb] at ht
    obtain rfl := next_inj ht
    exact .skip h hi
  rw [if_neg hf, if_neg hb] at ht
  by_cases hl : letterFollows s s.idx = true
  · rw [if_pos hl] at ht
    obtain rfl := next_inj ht
    by_cases hc : s.cancelWr = true
    · rw [if_pos hc]
      exact .fault (by simp [h]) hc
    · rw [if_neg hc, release_push_eq]
      exact .opening h hi (by simpa using hf) (by simpa using hb) hl (by simpa using hc)
  · rw [if_neg hl] at ht
    obtain rfl := next_inj ht
    exact .complete h

/-- A message byte's step is one of the rows of FETCH. -/
theorem decodeChar_row (c : Config) (b : Byte) (s t : State) (h : s.st = .fetch) (hi : s.idx < s.len)
    (ht : exec (decodeChar c b) s = .next t) : EngineRow s t := by
  unfold decodeChar at ht
  split at ht
  · rw [exec_letterInstr] at ht
    exact letterStep_row _ s t h hi ht
  · exact execSep_row s t h hi ht
  · obtain rfl := next_inj ht
    exact .skip h hi

/-- A step that flushes is its row or the exception. -/
theorem orInterrupted_flush (s : State) (rest : State → State) :
    orInterrupted s (flush s.ones s) rest =
      .next (if s.cancelWr = true ∧ (s.ones = 1 ∨ s.ones = 3) then engineFaulted s else rest (flushed s.ones s)) := by
  rw [flush_eq]
  split <;> rfl

/-- A pattern's step is one of the rows of BIT. -/
theorem decodePat_row (s t : State) (h : s.st = .bit) (ht : exec (decodePat s.cfg s.pat) s = .next t) : EngineRow s t := by
  unfold decodePat at ht
  by_cases hp : s.pat = 0
  · rw [if_pos hp] at ht
    obtain rfl := next_inj ht
    exact .finSel h hp
  rw [if_neg hp] at ht
  by_cases hm : s.pat.testBit (s.cfg.patWidth - 1) = true
  · rw [if_pos hm] at ht
    obtain rfl := next_inj ht
    exact .bit1 h hp hm
  · rw [if_neg hm] at ht
    simp only [exec, execBit0, orInterrupted_flush] at ht
    obtain rfl := next_inj ht
    by_cases hc : s.cancelWr = true ∧ (s.ones = 1 ∨ s.ones = 3)
    · rw [if_pos hc]
      exact .fault (by simp [h]) hc.1
    · rw [if_neg hc]
      exact .bit0 h hp (by simpa using hm) hc

/-- Every engine step is one of the rows of 42_sequencer R186, or the exception. -/
theorem runSelector_row (s t : State) (x : Selector) (hx : fetch s = .ok x) (ht : runSelector x s = .next t) :
    EngineRow s t := by
  unfold fetch at hx
  split at hx <;> rename_i hst
  · cases hx
  · split at hx
    · obtain rfl := Except.ok.inj hx
      obtain rfl := next_inj ht
      exact .complete hst
    · split at hx
      · rename_i b hb
        obtain rfl := Except.ok.inj hx
        have hi : s.idx < s.len := by
          unfold readMsg at hb
          split at hb
          · assumption
          · cases hb
        exact decodeChar_row s.cfg b s t hst hi ht
      · cases hx
  · obtain rfl := Except.ok.inj hx
    simp only [runSelector, decode, decodeSolo, exec, execSep2, orInterrupted_enqueue] at ht
    obtain rfl := next_inj ht
    by_cases hc : s.cancelWr = true
    · rw [if_pos hc]
      exact .fault (by simp [hst]) hc
    · rw [if_neg hc, release_push_eq]
      exact .sep2 hst (by simpa using hc)
  · obtain rfl := Except.ok.inj hx
    obtain rfl := next_inj ht
    exact .load hst
  · obtain rfl := Except.ok.inj hx
    simp only [runSelector, decode] at ht
    by_cases hfit : s.pat < 2 ^ s.cfg.patWidth
    · rw [if_pos hfit] at ht
      exact decodePat_row s t hst ht
    · rw [if_neg hfit] at ht
      cases ht
  · obtain rfl := Except.ok.inj hx
    obtain rfl := next_inj ht
    exact .shift hst
  · obtain rfl := Except.ok.inj hx
    simp only [runSelector, decode, decodeSolo, exec, execFin, orInterrupted_flush] at ht
    obtain rfl := next_inj ht
    by_cases hc : s.cancelWr = true ∧ (s.ones = 1 ∨ s.ones = 3)
    · rw [if_pos hc]
      exact .fault (by simp [hst]) hc.1
    · rw [if_neg hc]
      exact .fin hst hc
  · obtain rfl := Except.ok.inj hx
    obtain rfl := next_inj ht
    exact .next hst

/-- What a host command can do (44_host_commands R206 to R211). -/
inductive CommandRow (s : State) (code : BitVec 3) : State → Prop
  | answer (h : code ≠ 1#3 ∧ code ≠ 2#3 ∧ code ≠ 3#3) : CommandRow s code (respondOk s)
  | accepted (m : List Byte) (h : code = 1#3) (hst : s.st = .idle) : CommandRow s code (respondOk (acceptWrite m s))
  | refused (h : code = 1#3) (hst : s.st ≠ .idle) :
      CommandRow s code (respond { status := .busy, count := 0, data := [] } s)
  | read (n : Nat) (h : code = 2#3) (hc : s.cancelRd = false) :
      CommandRow s code
        (respond { status := .ok, count := ((closedQueue s).take n).length, data := (closedQueue s).take n }
          { s with q := (closedQueue s).drop n, ovf := closedOvf s, lock := .free })
  | readFault (h : code = 2#3) (hc : s.cancelRd = true) :
      CommandRow s code (respond { status := .fault, count := 0, data := [] } s)
  | clrOvf (h : code = 3#3) : CommandRow s code (respondOk { s with ovf := false })

/-- A drain that is not cancelled, written out (43_queue_and_reader R193). -/
theorem release_closeBatch (n : Nat) (s : State) :
    release { closeBatch s with q := (closeBatch s).q.drop n } =
      { s with q := (closedQueue s).drop n, ovf := closedOvf s, lock := .free } := by
  simp only [release, closeBatch_q, closeBatch_ovf, closeBatch_dotMs, closeBatch_cfgWarn, closeBatch_st, closeBatch_wait,
    closeBatch_idx, closeBatch_len, closeBatch_first, closeBatch_bdone, closeBatch_k, closeBatch_pat, closeBatch_ones,
    closeBatch_pulse, closeBatch_wrDone, closeBatch_wrStatus, closeBatch_wrCount, closeBatch_msg, closeBatch_rom,
    closeBatch_cancelWr, closeBatch_cancelRd, closeBatch_cfg, closeBatch_events, closeBatch_out]

/-- A selector that decodes runs its instruction. -/
theorem runSelector_ok (x : Selector) (i : Instr) (s : State) (h : decode s.cfg x = .ok i) : runSelector x s = exec i s := by
  simp only [runSelector, h]

/-- `WRITE` is accepted or refused (44_host_commands R206, R207). -/
theorem execWrite_row (m : List Byte) (s t : State) (ht : execWrite m s = .next t) : CommandRow s 1#3 t := by
  unfold execWrite busy at ht
  by_cases hst : s.st = .idle
  · rw [if_neg (by simp [hst])] at ht
    obtain rfl := next_inj ht
    exact .accepted m rfl hst
  · rw [if_pos (by simpa using hst)] at ht
    obtain rfl := next_inj ht
    exact .refused rfl hst

/-- `READ` drains or takes the reader's exception (44_host_commands R208). -/
theorem execRead_row (n : Nat) (s t : State) (ht : execRead n s = .next t) : CommandRow s 2#3 t := by
  unfold execRead at ht
  rw [drain_eq] at ht
  by_cases hc : s.cancelRd = true
  · rw [if_pos hc] at ht
    obtain rfl := next_inj ht
    exact .readFault rfl hc
  · rw [if_neg hc, release_closeBatch, closeBatch_q] at ht
    obtain rfl := next_inj ht
    exact .read n rfl (by simpa using hc)

/-- Every host command step is one of these rows. -/
theorem command_row (p : CommandPort) (s t : State) (ht : runSelector (.cmd p) s = .next t) : CommandRow s p.code t := by
  by_cases h0 : p.code = 0#3
  · rw [runSelector_ok _ .nop s (by simp [decode, decodeCmd, h0])] at ht
    obtain rfl := next_inj ht
    exact .answer (by simp [h0])
  by_cases h1 : p.code = 1#3
  · by_cases hfit : s.cfg.fits p.message.length = true
    · rw [runSelector_ok _ (.write p.message) s (by simp [decode, decodeCmd, h1, hfit])] at ht
      rw [h1]
      exact execWrite_row p.message s t ht
    · simp [runSelector, decode, decodeCmd, h1, hfit] at ht
  by_cases h2 : p.code = 2#3
  · by_cases hfit : p.maxCount < 2 ^ s.cfg.rdMaxBits
    · rw [runSelector_ok _ (.read p.maxCount) s (by simp [decode, decodeCmd, h2, hfit])] at ht
      rw [h2]
      exact execRead_row p.maxCount s t ht
    · simp [runSelector, decode, decodeCmd, h2, hfit] at ht
  by_cases h3 : p.code = 3#3
  · rw [runSelector_ok _ .clrOvf s (by simp [decode, decodeCmd, h3])] at ht
    obtain rfl := next_inj ht
    exact .clrOvf h3
  · rw [runSelector_ok _ (.rsv4to7 (p.code.setWidth 2)) s (by simp [decode, decodeCmd, h0, h1, h2, h3])] at ht
    obtain rfl := next_inj ht
    exact .answer ⟨h1, h2, h3⟩

/-- What one step can do (00_scope R9). -/
inductive StepRow (s : State) : State → Prop
  | tick (rest : List Event) (hb : blockMoves s rest) (he : s.st = .idle ∨ s.wait ≠ 0#3) :
      StepRow s (tick (openStep rest s))
  | engine (rest : List Event) (t : State) (hb : blockMoves s rest) (hst : s.st ≠ .idle) (hw : s.wait = 0#3)
      (hr : EngineRow (openStep rest s) t) : StepRow s t
  | command (rest : List Event) (p : CommandPort) (t : State) (he : s.events = .command p :: rest)
      (hr : CommandRow (openStep rest s) p.code t) : StepRow s t
  | cancelWr (rest : List Event) (level : Bool) (he : s.events = .cancelWr level :: rest) :
      StepRow s { openStep rest s with cancelWr := level }
  | cancelRd (rest : List Event) (level : Bool) (he : s.events = .cancelRd level :: rest) :
      StepRow s { openStep rest s with cancelRd := level }
  | reset (rest : List Event) (p : ConfigPort) (d : CommandPort) (he : s.events = .reset p d :: rest) :
      StepRow s (resetStep p (openStep rest s))

/-- The block's turn is a `TICK` or an engine row. -/
theorem blockTurn_row (s t : State) (rest : List Event) (hb : blockMoves s rest)
    (ht : blockTurn (openStep rest s) = .next t) : StepRow s t := by
  by_cases he : engineEnabled (openStep rest s) = true
  · obtain ⟨hst, hw⟩ := (engineEnabled_iff _).1 he
    simp only [blockTurn, he, if_true] at ht
    split at ht
    · exact .engine rest t hb hst hw (runSelector_row _ t _ ‹_› ht)
    · cases ht
  · rw [blockTurn_tick _ (by simpa using he)] at ht
    obtain rfl := next_inj ht
    refine .tick rest hb ?_
    rw [engineEnabled_iff] at he
    by_cases hst : s.st = .idle
    · exact .inl hst
    · exact .inr fun hw => he ⟨hst, hw⟩

/-- Every step that answers a next state is one of these rows. -/
theorem step_row (s t : State) (ht : step s = .next t) : StepRow s t := by
  cases he : s.events with
  | nil =>
    rw [step_of_no_events s he] at ht
    exact blockTurn_row s t [] (.inl ⟨he, rfl⟩) ht
  | cons e rest =>
    rw [step_of_event s e rest he] at ht
    cases e with
    | block => exact blockTurn_row s t rest (.inr he) ht
    | command p => exact .command rest p t he (command_row p _ t ht)
    | cancelWr level =>
      obtain rfl := next_inj ht
      exact .cancelWr rest level he
    | cancelRd level =>
      obtain rfl := next_inj ht
      exact .cancelRd rest level he
    | reset p d =>
      obtain rfl := next_inj ht
      exact .reset rest p d he

end Sys2Proof.Machine
end

