-- ==== Sys2Proof/Tests/Slice0.lean ====
section
/-! SUPPORT. Tests and witnesses. Expected values come from the spec: the encodings of 30_encoding R91 to R104, the vectors of
95_test_vectors (named V<n>, P<n>) and the examples of the rules. -/

namespace Sys2Proof.Tests

open Sys2Proof.Machine

/-! ### Helpers -/

/-- The state a step or an instruction answers, if it does not stop. -/
def nextState (r : Result) : Option State :=
  match r with
  | .next t => some t
  | .fault _ => none
  | .refused _ => none

/-- Reset, then the engine at the first byte of a message. -/
def fetching (message : List Byte) : State := { State.reset with st := .fetch, msg := message, len := message.length }

/-- The engine inside a message, after the letter E and its symbol (V122): one more letter to fetch. -/
def afterE : State :=
  { State.reset with
    st := .fetch, msg := [0x45#8, 0x45#8], len := 2, idx := 1, first := false, k := 4, ones := 1, q := [0x2E#8] }

/-- The engine at the separator of "E E" (V89, V123). -/
def atBoundary : State :=
  { State.reset with
    st := .fetch, msg := [0x45#8, 0x20#8, 0x45#8], len := 3, idx := 1, first := false, k := 4, ones := 1, q := [0x2E#8] }

/-- The engine between the two spaces of the boundary of "E E" (V89, V123). -/
def betweenSpaces : State := { atBoundary with st := .sep2, q := [0x2E#8, 0x20#8] }

/-- The engine at a pattern, in a message "A". -/
def atPattern (p : Pattern) (n : RunLength) : State :=
  { State.reset with st := .bit, msg := [0x41#8], len := 1, first := false, pat := p, ones := n, pulse := n != 0 }

/-- The same with a queue of capacity `cap`. -/
def withCap (cap : Nat) (queue : List Byte) (s : State) : State :=
  { s with cfg := { s.cfg with queueCap := cap }, q := queue }

/-- Parameters with a bounded message length. -/
def bounded (n : Nat) : Config := { Config.standard with msgMax := some n }

/-- A command on the port. -/
def port (code : BitVec 3) (message : List Byte) (maxCount : Nat) : CommandPort :=
  { code := code, message := message, maxCount := maxCount }

/-! ### Well-formedness: one ill-formed term for each check, refused -/

theorem test_ill_formed_sep_not_a_separator : (Instr.sep 0x31#8).wellFormed Config.standard = false := by decide
theorem test_ill_formed_sep_letter :
    (Instr.sep 0x41#8).wellFormed { Config.standard with separators := [0x41#8] } = false := by decide
theorem test_ill_formed_ign_separator : (Instr.ign 0x20#8).wellFormed Config.standard = false := by decide
theorem test_ill_formed_ign_letter : (Instr.ign 0x7A#8).wellFormed Config.standard = false := by decide
theorem test_ill_formed_bit0_zero : (Instr.bit0 0).wellFormed Config.standard = false := by decide
theorem test_ill_formed_flush_none_one : (Instr.flushNone 1).wellFormed Config.standard = false := by decide
theorem test_ill_formed_flush_none_three : (Instr.flushNone 3).wellFormed Config.standard = false := by decide
theorem test_ill_formed_write_too_long : (Instr.write [0x41#8, 0x42#8, 0x43#8]).wellFormed (bounded 2) = false := by decide
theorem test_config_valid : Config.standard.valid = true := by decide
theorem test_config_letter_separator : Config.valid { Config.standard with separators := [0x7A#8] } = false := by decide
theorem test_config_no_queue : Config.valid { Config.standard with queueCap := 0 } = false := by decide

theorem test_ill_formed_bit1_too_wide : (Instr.bit1 0x8000).wellFormed Config.standard = false := by decide
theorem test_ill_formed_bit0_too_wide : (Instr.bit0 0x8000).wellFormed Config.standard = false := by decide
theorem test_ill_formed_read_too_wide : (Instr.read 65536).wellFormed Config.standard = false := by decide
theorem test_config_narrow_pattern : Config.valid { Config.standard with patWidth := 12 } = false := by decide
/-- D23: `RD_MAX_BITS` must hold `QUEUE_CAP`. -/
theorem test_config_narrow_read : Config.valid { Config.standard with rdMaxBits := 15 } = false := by decide

/-! ### Decoding: a word of every row, written out from its encoding (30_encoding R91, R92, R94, R100, R101, R104) -/

theorem test_decode_letterA :
    decode Config.standard (.char 0b01000001#8) = .ok (.letterA false) ∧
      decode Config.standard (.char 0b01100001#8) = .ok (.letterA true) := by decide
theorem test_decode_letterB :
    decode Config.standard (.char 0b01000010#8) = .ok (.letterB false) ∧
      decode Config.standard (.char 0b01100010#8) = .ok (.letterB true) := by decide
theorem test_decode_letterC :
    decode Config.standard (.char 0b01000011#8) = .ok (.letterC false) ∧
      decode Config.standard (.char 0b01100011#8) = .ok (.letterC true) := by decide
theorem test_decode_letterD :
    decode Config.standard (.char 0b01000100#8) = .ok (.letterD false) ∧
      decode Config.standard (.char 0b01100100#8) = .ok (.letterD true) := by decide
theorem test_decode_letterE :
    decode Config.standard (.char 0b01000101#8) = .ok (.letterE false) ∧
      decode Config.standard (.char 0b01100101#8) = .ok (.letterE true) := by decide
theorem test_decode_letterF :
    decode Config.standard (.char 0b01000110#8) = .ok (.letterF false) ∧
      decode Config.standard (.char 0b01100110#8) = .ok (.letterF true) := by decide
theorem test_decode_letterG :
    decode Config.standard (.char 0b01000111#8) = .ok (.letterG false) ∧
      decode Config.standard (.char 0b01100111#8) = .ok (.letterG true) := by decide
theorem test_decode_letterH :
    decode Config.standard (.char 0b01001000#8) = .ok (.letterH false) ∧
      decode Config.standard (.char 0b01101000#8) = .ok (.letterH true) := by decide
theorem test_decode_letterI :
    decode Config.standard (.char 0b01001001#8) = .ok (.letterI false) ∧
      decode Config.standard (.char 0b01101001#8) = .ok (.letterI true) := by decide
theorem test_decode_letterJ :
    decode Config.standard (.char 0b01001010#8) = .ok (.letterJ false) ∧
      decode Config.standard (.char 0b01101010#8) = .ok (.letterJ true) := by decide
theorem test_decode_letterK :
    decode Config.standard (.char 0b01001011#8) = .ok (.letterK false) ∧
      decode Config.standard (.char 0b01101011#8) = .ok (.letterK true) := by decide
theorem test_decode_letterL :
    decode Config.standard (.char 0b01001100#8) = .ok (.letterL false) ∧
      decode Config.standard (.char 0b01101100#8) = .ok (.letterL true) := by decide
theorem test_decode_letterM :
    decode Config.standard (.char 0b01001101#8) = .ok (.letterM false) ∧
      decode Config.standard (.char 0b01101101#8) = .ok (.letterM true) := by decide
theorem test_decode_letterN :
    decode Config.standard (.char 0b01001110#8) = .ok (.letterN false) ∧
      decode Config.standard (.char 0b01101110#8) = .ok (.letterN true) := by decide
theorem test_decode_letterO :
    decode Config.standard (.char 0b01001111#8) = .ok (.letterO false) ∧
      decode Config.standard (.char 0b01101111#8) = .ok (.letterO true) := by decide
theorem test_decode_letterP :
    decode Config.standard (.char 0b01010000#8) = .ok (.letterP false) ∧
      decode Config.standard (.char 0b01110000#8) = .ok (.letterP true) := by decide
theorem test_decode_letterQ :
    decode Config.standard (.char 0b01010001#8) = .ok (.letterQ false) ∧
      decode Config.standard (.char 0b01110001#8) = .ok (.letterQ true) := by decide
theorem test_decode_letterR :
    decode Config.standard (.char 0b01010010#8) = .ok (.letterR false) ∧
      decode Config.standard (.char 0b01110010#8) = .ok (.letterR true) := by decide
theorem test_decode_letterS :
    decode Config.standard (.char 0b01010011#8) = .ok (.letterS false) ∧
      decode Config.standard (.char 0b01110011#8) = .ok (.letterS true) := by decide
theorem test_decode_letterT :
    decode Config.standard (.char 0b01010100#8) = .ok (.letterT false) ∧
      decode Config.standard (.char 0b01110100#8) = .ok (.letterT true) := by decide
theorem test_decode_letterU :
    decode Config.standard (.char 0b01010101#8) = .ok (.letterU false) ∧
      decode Config.standard (.char 0b01110101#8) = .ok (.letterU true) := by decide
theorem test_decode_letterV :
    decode Config.standard (.char 0b01010110#8) = .ok (.letterV false) ∧
      decode Config.standard (.char 0b01110110#8) = .ok (.letterV true) := by decide
theorem test_decode_letterW :
    decode Config.standard (.char 0b01010111#8) = .ok (.letterW false) ∧
      decode Config.standard (.char 0b01110111#8) = .ok (.letterW true) := by decide
theorem test_decode_letterX :
    decode Config.standard (.char 0b01011000#8) = .ok (.letterX false) ∧
      decode Config.standard (.char 0b01111000#8) = .ok (.letterX true) := by decide
theorem test_decode_letterY :
    decode Config.standard (.char 0b01011001#8) = .ok (.letterY false) ∧
      decode Config.standard (.char 0b01111001#8) = .ok (.letterY true) := by decide
theorem test_decode_letterZ :
    decode Config.standard (.char 0b01011010#8) = .ok (.letterZ false) ∧
      decode Config.standard (.char 0b01111010#8) = .ok (.letterZ true) := by decide
theorem test_decode_sep : decode Config.standard (.char 0b00100000#8) = .ok (.sep 0x20#8) := by decide
theorem test_decode_ign : decode Config.standard (.char 0b01000000#8) = .ok (.ign 0x40#8) := by decide
theorem test_decode_end : decode Config.standard (.noByte) = .ok (.endMsg) := by decide
theorem test_decode_sep2 : decode Config.standard (.solo .sep2) = .ok (.sep2) := by decide
theorem test_decode_next : decode Config.standard (.solo .next) = .ok (.next) := by decide
theorem test_decode_load : decode Config.standard (.solo .load) = .ok (.load) := by decide
theorem test_decode_fin_sel : decode Config.standard (.pat 0b0000000000000000) = .ok (.finSel) := by decide
theorem test_decode_bit1 : decode Config.standard (.pat 0b1011100000000000) = .ok (.bit1 0b011100000000000) := by decide
theorem test_decode_bit0 : decode Config.standard (.pat 0b0111000000000000) = .ok (.bit0 0b111000000000000) := by decide
theorem test_decode_bit0_last : decode Config.standard (.pat 0b0000000000000001) = .ok (.bit0 1) := by decide
theorem test_decode_shift : decode Config.standard (.solo .shift) = .ok (.shift) := by decide
theorem test_decode_fin : decode Config.standard (.solo .fin) = .ok (.fin) := by decide
theorem test_decode_flush_dot : decode Config.standard (.run 0b00001) = .ok (.flushDot) := by decide
theorem test_decode_flush_dash : decode Config.standard (.run 0b00011) = .ok (.flushDash) := by decide
theorem test_decode_flush_none_0 : decode Config.standard (.run 0b00000) = .ok (.flushNone 0) := by decide
theorem test_decode_flush_none_2 : decode Config.standard (.run 0b00010) = .ok (.flushNone 2) := by decide
theorem test_decode_flush_none_16 : decode Config.standard (.run 0b10000) = .ok (.flushNone 16) := by decide
theorem test_decode_nop : decode Config.standard (.cmd (port 0b000#3 [] 0)) = .ok (.nop) := by decide
theorem test_decode_write : decode Config.standard (.cmd (port 0b001#3 [0x53#8, 0x4F#8, 0x53#8] 0)) = .ok (.write [0x53#8, 0x4F#8, 0x53#8]) := by decide
theorem test_decode_read : decode Config.standard (.cmd (port 0b010#3 [] 100)) = .ok (.read 100) := by decide
theorem test_decode_clr_ovf : decode Config.standard (.cmd (port 0b011#3 [] 0)) = .ok (.clrOvf) := by decide
theorem test_decode_rsv_4 : decode Config.standard (.cmd (port 0b100#3 [] 0)) = .ok (.rsv4to7 0b00#2) := by decide
theorem test_decode_rsv_7 : decode Config.standard (.cmd (port 0b111#3 [] 0)) = .ok (.rsv4to7 0b11#2) := by decide
/-- V30, bytes at and just outside the ranges of the letters. -/
theorem test_classes_at_the_edges :
    [0x40#8, 0x5B#8, 0x60#8, 0x7B#8, 0xC1#8, 0xDA#8, 0xFA#8, 0xFF#8].map (classify Config.standard) = List.replicate 8 .ign ∧
      [0x41#8, 0x5A#8, 0x61#8, 0x7A#8].map (classify Config.standard) =
        [.letter 0, .letter 25, .letter 0, .letter 25] := by decide
/-- 70 R263: the one rejection. -/
theorem test_decode_write_too_long :
    decode (bounded 2) (.cmd (port 1#3 [0x41#8, 0x42#8, 0x43#8] 0)) = .error .messageTooLong := by decide
/-- Values that the port or the register cannot express (log 7). -/
theorem test_decode_too_wide :
    decode Config.standard (.cmd (port 2#3 [] 65536)) = .error .tooWide ∧
      decode Config.standard (.pat 0x10000) = .error .tooWide := by decide
/-- Another width (00_scope R6): with 13 bits the top bit is bit 12, and the word of J is its 13 bits (30_encoding R96). -/
theorem test_decode_thirteen_bits :
    decode { Config.standard with patWidth := 13 } (.pat 0b1011101110111) = .ok (.bit1 0b011101110111) ∧
      decode { Config.standard with patWidth := 13 } (.pat 0b0111011101110) = .ok (.bit0 0b111011101110) ∧
      (romTable 13)[9] = 0b1011101110111 ∧ (romTable 16)[9] = 0xBBB8 ∧ (romTable 20)[9] = 0xBBB80 := by decide
/-- The numbers of spec/opcode_table.json, with an operand zero or not. -/
theorem test_table_words :
    decodeTableWord 8 0x41 = some (.letterA false) ∧ decodeTableWord 8 0x7A = some (.letterZ true) ∧
      decodeTableWord 8 0x20 = some (.sep 0x20#8) ∧ decodeTableWord 0 0 = some .endMsg ∧
      decodeTableWord 16 0x0000 = some .finSel ∧ decodeTableWord 16 0x8000 = some (.bit1 0) ∧
      decodeTableWord 16 0x1000 = some (.bit0 0x1000) ∧ decodeTableWord 8 2 = some (.read 0) ∧
      decodeTableWord 8 4 = some (.rsv4to7 0#2) := by decide
/-- A letter placed where the next step fetches runs as the first instruction after reset (42_sequencer R173). -/
theorem test_placed_letter_runs :
    (nextState (step (State.reset.withFetchWord 8 0x42))).map (fun t => (t.k, t.st)) = some (1, .load) := by decide
/-- So does a command: its response appears (44_host_commands R210). -/
theorem test_placed_command_runs :
    (nextState (step (State.reset.withFetchWord 8 3))).map (fun t => (t.out, t.st)) =
      some (.response { status := .ok, count := 0, data := [] }, .idle) := by decide

/-! ### Letters: table 30_encoding R96. One FETCH step, then the word that LOAD will read. -/

/-- The word of the table that the letter met by one step selects. -/
def letterWord (b : Byte) : Option Pattern := (nextState (step (fetching [b]))).map fun t => readRom t t.k

theorem test_letterA : letterWord 0x41#8 = some 0xB800 ∧ letterWord 0x61#8 = some 0xB800 := by decide
theorem test_letterB : letterWord 0x42#8 = some 0xEA80 ∧ letterWord 0x62#8 = some 0xEA80 := by decide
theorem test_letterC : letterWord 0x43#8 = some 0xEBA0 ∧ letterWord 0x63#8 = some 0xEBA0 := by decide
theorem test_letterD : letterWord 0x44#8 = some 0xEA00 ∧ letterWord 0x64#8 = some 0xEA00 := by decide
theorem test_letterE : letterWord 0x45#8 = some 0x8000 ∧ letterWord 0x65#8 = some 0x8000 := by decide
theorem test_letterF : letterWord 0x46#8 = some 0xAE80 ∧ letterWord 0x66#8 = some 0xAE80 := by decide
theorem test_letterG : letterWord 0x47#8 = some 0xEE80 ∧ letterWord 0x67#8 = some 0xEE80 := by decide
theorem test_letterH : letterWord 0x48#8 = some 0xAA00 ∧ letterWord 0x68#8 = some 0xAA00 := by decide
theorem test_letterI : letterWord 0x49#8 = some 0xA000 ∧ letterWord 0x69#8 = some 0xA000 := by decide
theorem test_letterJ : letterWord 0x4A#8 = some 0xBBB8 ∧ letterWord 0x6A#8 = some 0xBBB8 := by decide
theorem test_letterK : letterWord 0x4B#8 = some 0xEB80 ∧ letterWord 0x6B#8 = some 0xEB80 := by decide
theorem test_letterL : letterWord 0x4C#8 = some 0xBA80 ∧ letterWord 0x6C#8 = some 0xBA80 := by decide
theorem test_letterM : letterWord 0x4D#8 = some 0xEE00 ∧ letterWord 0x6D#8 = some 0xEE00 := by decide
theorem test_letterN : letterWord 0x4E#8 = some 0xE800 ∧ letterWord 0x6E#8 = some 0xE800 := by decide
theorem test_letterO : letterWord 0x4F#8 = some 0xEEE0 ∧ letterWord 0x6F#8 = some 0xEEE0 := by decide
theorem test_letterP : letterWord 0x50#8 = some 0xBBA0 ∧ letterWord 0x70#8 = some 0xBBA0 := by decide
theorem test_letterQ : letterWord 0x51#8 = some 0xEEB8 ∧ letterWord 0x71#8 = some 0xEEB8 := by decide
theorem test_letterR : letterWord 0x52#8 = some 0xBA00 ∧ letterWord 0x72#8 = some 0xBA00 := by decide
theorem test_letterS : letterWord 0x53#8 = some 0xA800 ∧ letterWord 0x73#8 = some 0xA800 := by decide
theorem test_letterT : letterWord 0x54#8 = some 0xE000 ∧ letterWord 0x74#8 = some 0xE000 := by decide
theorem test_letterU : letterWord 0x55#8 = some 0xAE00 ∧ letterWord 0x75#8 = some 0xAE00 := by decide
theorem test_letterV : letterWord 0x56#8 = some 0xAB80 ∧ letterWord 0x76#8 = some 0xAB80 := by decide
theorem test_letterW : letterWord 0x57#8 = some 0xBB80 ∧ letterWord 0x77#8 = some 0xBB80 := by decide
theorem test_letterX : letterWord 0x58#8 = some 0xEAE0 ∧ letterWord 0x78#8 = some 0xEAE0 := by decide
theorem test_letterY : letterWord 0x59#8 = some 0xEBB8 ∧ letterWord 0x79#8 = some 0xEBB8 := by decide
theorem test_letterZ : letterWord 0x5A#8 = some 0xEEA0 ∧ letterWord 0x7A#8 = some 0xEEA0 := by decide
/-- V122: the second letter of a word enqueues a space and waits 2 quanta. -/
theorem test_letter_in_word :
    (nextState (step afterE)).map (fun t => (t.q, t.wait)) = some ([0x2E#8, 0x20#8], 2#3) := by decide
/-- V122: with the cancel level it takes the exception and the queue keeps the dot only. -/
theorem test_letter_in_word_cancelled :
    (nextState (step { afterE with cancelWr := true })).map (fun t => (t.q, t.st, t.wrStatus, t.idx)) =
      some ([0x2E#8], .idle, .fault, 1) := by decide

/-! ### The sequencer -/

/-- V89: the separator of "E E" enqueues the first space. -/
theorem test_sep_opens : (nextState (step atBoundary)).map (fun t => (t.q, t.st)) = some ([0x2E#8, 0x20#8], .sep2) := by decide
/-- V52: the separator of "E " ends the command, `idx` stays, the full length is reported. -/
theorem test_sep_trailing :
    (nextState (step { atBoundary with msg := [0x45#8, 0x20#8], len := 2 })).map (fun t => (t.st, t.idx, t.wrCount)) =
      some (.idle, 1, 2) := by decide
/-- V66: the ignored byte of "a1b" moves on. -/
theorem test_ign : (nextState (step (fetching [0x31#8]))).map (fun t => (t.st, t.first, t.q)) = some (.next, true, []) := by decide
/-- S4: the empty message completes at once. -/
theorem test_end : (nextState (step (fetching []))).map (fun t => (t.st, t.wrDone, t.wrCount)) = some (.idle, true, 0) := by decide
/-- P2: the second space and a wait of 4. -/
theorem test_sep2 :
    (nextState (step betweenSpaces)).map (fun t => (t.q, t.wait, t.bdone)) = some ([0x2E#8, 0x20#8, 0x20#8], 4#3, true) := by decide
/-- V123: the exception at SEP2. -/
theorem test_sep2_cancelled :
    (nextState (step { betweenSpaces with cancelWr := true })).map (fun t => (t.q, t.st, t.wrStatus)) =
      some ([0x2E#8, 0x20#8], .idle, .fault) := by decide
/-- V14: NEXT after the letter. -/
theorem test_next :
    (nextState (step { atPattern 0 3 with st := .next })).map (fun t => (t.idx, t.st)) = some (1, .fetch) := by decide

/-! ### The generator -/

/-- V14: LOAD of A. -/
theorem test_load :
    (nextState (step { fetching [0x41#8] with st := .load })).map (fun t => (t.pat, t.ones, t.st)) = some (0xB800, 0, .bit) := by decide
/-- V14: FIN_SEL at `t = 5`. -/
theorem test_fin_sel :
    (nextState (step (atPattern 0 3))).map (fun t => (t.st, t.ones, t.pulse)) = some (.fin, 3, true) := by decide
/-- The example of 40_pulse_generator R122. -/
theorem test_bit1 :
    (nextState (step (atPattern 0xB800 0))).map (fun t => (t.pulse, t.ones, t.wait)) = some (true, 1, 1#3) := by decide
/-- The example of 40_pulse_generator R123. -/
theorem test_bit0 :
    (nextState (step (atPattern 0x7000 1))).map (fun t => (t.q, t.pulse, t.ones, t.wait)) =
      some ([0x2E#8], false, 0, 1#3) := by decide
/-- V121: the exception at BIT0; `pat` and `ones` stay. -/
theorem test_bit0_cancelled :
    (nextState (step { atPattern 0x7000 1 with cancelWr := true })).map (fun t => (t.q, t.pulse, t.ones, t.pat)) =
      some ([], false, 1, 0x7000) := by decide
/-- The examples of 40_pulse_generator R126. -/
theorem test_shift :
    (nextState (step { atPattern 0xB800 1 with st := .shift })).map (fun t => t.pat) = some 0x7000 ∧
      (nextState (step { atPattern 0x8000 3 with st := .shift })).map (fun t => t.pat) = some 0 := by decide
/-- The bit shifted out leaves at the machine's own width (40_pulse_generator R126). -/
theorem test_shift_thirteen_bits :
    (nextState (step { atPattern 0b1011101110111 1 with st := .shift, cfg := { Config.standard with patWidth := 13 } })).map
      (fun t => t.pat) = some 0b0111011101110 := by decide
/-- V14: FIN at `t = 5`. -/
theorem test_fin :
    (nextState (step { withCap 32768 [0x2E#8] (atPattern 0 3) with st := .fin })).map (fun t => (t.q, t.pulse, t.wait, t.ones)) =
      some ([0x2E#8, 0x2D#8], false, 1#3, 3) := by decide
/-- V120: the exception at FIN; the dash is not enqueued and no quantum is waited. -/
theorem test_fin_cancelled :
    (nextState (step { withCap 32768 [0x2E#8] (atPattern 0 3) with st := .fin, cancelWr := true })).map
      (fun t => (t.q, t.pulse, t.wait, t.st)) = some ([0x2E#8], false, 0#3, .idle) := by decide
theorem test_flush_dot : (nextState (exec .flushDot (fetching []))).map (fun t => t.q) = some [0x2E#8] := by decide
/-- The example of 40_pulse_generator R124. -/
theorem test_flush_dash : (nextState (exec .flushDash (withCap 4 [0x2E#8] (fetching [])))).map (fun t => t.q) = some [0x2E#8, 0x2D#8] := by decide
theorem test_flush_none : nextState (exec (.flushNone 2) { afterE with cancelWr := true }) = some { afterE with cancelWr := true } := by decide
/-- The example of 43_queue_and_reader R190: a full queue drops the symbol and the pulse goes on. -/
theorem test_fin_full_queue :
    (nextState (step { withCap 4 [0x2E#8, 0x2E#8, 0x2E#8, 0x20#8] (atPattern 0 3) with st := .fin })).map
      (fun t => (t.q, t.ovf, t.st)) = some ([0x2E#8, 0x2E#8, 0x2E#8, 0x20#8], true, .next) := by decide
/-- V92: the cancel level is seen before the full queue: no drop is recorded. -/
theorem test_fin_full_queue_cancelled :
    (nextState (step { withCap 3 [0x2E#8, 0x2D#8, 0x20#8] (atPattern 0 1) with st := .fin, cancelWr := true })).map
      (fun t => (t.ovf, t.wrStatus)) = some (false, .fault) := by decide

/-! ### The host commands -/

theorem test_nop :
    (nextState (exec .nop afterE)).map (fun t => (t.out, t.st)) = some (.response { status := .ok, count := 0, data := [] }, .fetch) := by decide
/-- The example of 44_host_commands R206: WRITE "SOS" from reset. -/
theorem test_write :
    (nextState (exec (.write [0x53#8, 0x4F#8, 0x53#8]) State.reset)).map (fun t => (t.len, t.idx, t.st)) = some (3, 0, .fetch) := by decide
/-- V100: a second WRITE is refused. -/
theorem test_write_busy :
    nextState (exec (.write [0x45#8]) afterE) =
      some { afterE with out := .response { status := .busy, count := 0, data := [] } } := by decide
/-- V88: reading in the middle of a letter closes the batch with a newline. -/
theorem test_read :
    (nextState (exec (.read 10) { atPattern 0xE000 0 with q := [0x2E#8] })).map (fun t => (t.out, t.q)) =
      some (.response { status := .ok, count := 2, data := [0x2E#8, 0x0A#8] }, []) := by decide
/-- V86: a full queue drops the newline, and `READ 0` returns nothing. -/
theorem test_read_full :
    (nextState (exec (.read 0) (withCap 4 (List.replicate 4 0x2E#8) State.reset))).map (fun t => (t.out, t.q.length, t.ovf)) =
      some (.response { status := .ok, count := 0, data := [] }, 4, true) := by decide
/-- V91: a cancelled read of an empty queue is the fault. -/
theorem test_read_cancelled :
    (nextState (exec (.read 10) { State.reset with cancelRd := true })).map (fun t => t.out) =
      some (.response { status := .fault, count := 0, data := [] }) := by decide
theorem test_clr_ovf : (nextState (exec .clrOvf { afterE with ovf := true })).map (fun t => (t.ovf, t.q)) = some (false, [0x2E#8]) := by decide
theorem test_rsv :
    (nextState (exec (.rsv4to7 3#2) afterE)).map (fun t => (t.out, t.q)) =
      some (.response { status := .ok, count := 0, data := [] }, [0x2E#8]) := by decide

/-! ### Steps that are no instruction -/

/-- 00_scope R9 (2): a TICK shows the level and counts down. -/
theorem test_tick :
    (nextState (step { atPattern 0x7000 1 with wait := 1#3 })).map (fun t => (t.wait, t.out)) = some (0#3, .quantum true) := by decide
/-- V110: all rows. -/
theorem test_config_taken :
    [1, 2, 199, 200, 201, 1999, 2000].map
        (fun n => let p : ConfigPort := { present := true, dotMs := BitVec.ofNat 32 n }; ((configDotMs p).toNat, configWarn p)) =
      [(1, false), (2, false), (199, false), (200, false), (201, false), (1999, false), (2000, false)] := by decide
theorem test_config_default :
    [0x7D1#32, 0#32, 0xFFFFFFFF#32, 0xFFFFFF38#32, 0x000100C8#32, 0x7FFFFFFF#32, 0x80000000#32].map
        (fun d => let p : ConfigPort := { present := true, dotMs := d }; ((configDotMs p).toNat, configWarn p)) =
      List.replicate 7 (200, true) ∧
      configDotMs { present := false, dotMs := 100#32 } = 200#11 := by decide
/-- 60_exceptions R236: 200 ms at 1 MHz. -/
theorem test_quantum_cycles :
    quantumCycles { State.reset with cfg := { Config.standard with clkHz := some 1000000 } } = some 200000 := by decide
/-- V140: reset during a command. -/
theorem test_reset :
    (nextState (step { afterE with events := [.reset { present := true, dotMs := 50#32 } (port 1#3 [0x41#8] 0)] })).map
      (fun t => (t.st, t.q, t.dotMs, t.cfgWarn)) = some (.idle, [], 50#11, false) := by decide
/-! ### Witnesses: for every statement with hypotheses, a state and operands that meet them, clause by clause -/

theorem witness_DecodeInvertsEncode :
    (Instr.sep 0x20#8).wellFormed Config.standard = true ∧ (Instr.ign 0x00#8).wellFormed Config.standard = true ∧
      (Instr.ign 0xFF#8).wellFormed Config.standard = true ∧ (Instr.bit0 1).wellFormed Config.standard = true ∧
      (Instr.bit0 0x7FFF).wellFormed Config.standard = true ∧
      (Instr.bit1 0).wellFormed Config.standard = true ∧ (Instr.bit1 0x7FFF).wellFormed Config.standard = true ∧
      (Instr.read 0).wellFormed Config.standard = true ∧ (Instr.read 65535).wellFormed Config.standard = true ∧
      (Instr.flushNone 0).wellFormed Config.standard = true ∧
      (Instr.flushNone 2).wellFormed Config.standard = true ∧ (Instr.flushNone 31).wellFormed Config.standard = true ∧
      (Instr.write [0x41#8, 0x42#8]).wellFormed (bounded 2) = true ∧ (Instr.letterZ true).wellFormed (bounded 0) = true := by
  decide

theorem witness_EncodeInvertsDecode :
    decode Config.standard (.char 0x5A#8) = .ok (.letterZ false) ∧
      decode Config.standard (.cmd (port 3#3 [0x41#8] 7)) = .ok .clrOvf := by decide

theorem witness_DecodedIsWellFormed :
    decode (bounded 2) (.cmd (port 1#3 [0x41#8, 0x42#8] 0)) = .ok (.write [0x41#8, 0x42#8]) ∧
      decode (bounded 1) (.cmd (port 1#3 [0x41#8, 0x42#8] 0)) = .error .messageTooLong ∧
      decode Config.standard (.cmd (port 2#3 [] 65536)) = .error .tooWide ∧
      decode Config.standard (.cmd (port 2#3 [] 65535)) = .ok (.read 65535) ∧
      decode Config.standard (.pat 65536) = .error .tooWide ∧ decode Config.standard (.pat 65535) = .ok (.bit1 0x7FFF) := by
  decide

theorem witness_ClassOfEveryByte :
    isLetterByte 0x41#8 = true ∧ isLetterByte 0x7A#8 = true ∧
      (isLetterByte 0x20#8 = false ∧ 0x20#8 ∈ Config.standard.separators) ∧
      (isLetterByte 0x60#8 = false ∧ 0x60#8 ∉ Config.standard.separators) := by decide

theorem witness_CommandCodesDecode :
    (bounded 2).fits [0x41#8, 0x42#8].length = true ∧ Config.standard.fits 0 = true ∧ 65535 < 2 ^ Config.standard.rdMaxBits := by
  decide

/-- The least width, and this hardware's. -/
theorem witness_RomWordsFollowTheGrammar : 13 ≤ 13 ∧ 13 ≤ Config.standard.patWidth := by decide

theorem witness_RomWordsAreWellShaped : 13 ≤ 13 ∧ 13 ≤ Config.standard.patWidth := by decide

/-- This hardware, and a machine whose `RD_MAX_BITS` just holds its `QUEUE_CAP`. -/
theorem witness_GreatestReadEmptiesTheQueue :
    (afterE.cfg.valid = true ∧ afterE.q.length ≤ afterE.cfg.queueCap ∧ afterE.cancelRd = false) ∧
      Config.valid { Config.standard with queueCap := 3, rdMaxBits := 2 } = true := by decide

theorem witness_FirstLetterGoesStraightToLoad : (fetching [0x41#8]).first = true := by decide

theorem witness_LetterAfterBoundaryWaitsOnly :
    { atBoundary with idx := 2, bdone := true }.first = false ∧ { atBoundary with idx := 2, bdone := true }.bdone = true := by
  decide

theorem witness_LetterInWordEnqueuesASpace :
    afterE.first = false ∧ afterE.bdone = false ∧ afterE.cancelWr = false ∧
      { afterE with cancelWr := true }.first = false ∧ { afterE with cancelWr := true }.bdone = false ∧
      { afterE with cancelWr := true }.cancelWr = true := by decide

theorem witness_SkippedByteOnlyMovesOn :
    (fetching [0x20#8]).first = true ∧ { atBoundary with bdone := true }.bdone = true := by decide

theorem witness_OpeningSeparatorEnqueuesTheFirstSpace :
    atBoundary.first = false ∧ atBoundary.bdone = false ∧ letterFollows atBoundary atBoundary.idx = true ∧
      atBoundary.cancelWr = false ∧ letterFollows { atBoundary with cancelWr := true } atBoundary.idx = true := by decide

theorem witness_CompletionReportsTheFullLength :
    { atBoundary with msg := [0x45#8, 0x20#8], len := 2 }.first = false ∧
      { atBoundary with msg := [0x45#8, 0x20#8], len := 2 }.bdone = false ∧
      letterFollows { atBoundary with msg := [0x45#8, 0x20#8], len := 2 } 1 = false := by decide

theorem witness_SecondSpaceOpensTheWordGap :
    betweenSpaces.cancelWr = false ∧ { betweenSpaces with cancelWr := true }.cancelWr = true := by decide

theorem witness_ZeroBitFlushesThenTurnsOff :
    (atPattern 0x7000 1).cancelWr = false ∧
      ({ atPattern 0x7000 2 with cancelWr := true }.ones ≠ 1 ∧ { atPattern 0x7000 2 with cancelWr := true }.ones ≠ 3) ∧
      ({ atPattern 0x7000 1 with cancelWr := true }.cancelWr = true ∧ (atPattern 0x7000 1).ones = 1) ∧
      (atPattern 0x7000 3).ones = 3 := by decide

theorem witness_FinFlushesTheTrailingRun :
    (atPattern 0 3).cancelWr = false ∧
      ({ atPattern 0 4 with cancelWr := true }.ones ≠ 1 ∧ { atPattern 0 4 with cancelWr := true }.ones ≠ 3) ∧
      { atPattern 0 3 with cancelWr := true }.cancelWr = true ∧ (atPattern 0 3).ones = 3 := by decide

theorem witness_FlushEnqueuesDotOrDash : afterE.cancelWr = false ∧ { afterE with cancelWr := true }.cancelWr = true := by decide

theorem witness_PushAppendsOrDrops :
    (withCap 4 (List.replicate 3 0x2E#8) afterE).q.length < (withCap 4 (List.replicate 3 0x2E#8) afterE).cfg.queueCap ∧
      (withCap 4 (List.replicate 4 0x2E#8) afterE).cfg.queueCap ≤ (withCap 4 (List.replicate 4 0x2E#8) afterE).q.length := by decide

theorem witness_WriteIsAcceptedWhenIdle : State.reset.st = .idle := by decide

theorem witness_WriteIsRefusedWhenBusy : afterE.st ≠ .idle := by decide

theorem witness_ReadDrainsTheQueue : afterE.cancelRd = false ∧ { afterE with cancelRd := true }.cancelRd = true := by decide

/-- A state whose status is already FAULT and a step that keeps it. -/
theorem witness_FaultNeedsTheCancelLevel :
    nextIsReset { State.reset with wrStatus := .fault } = false ∧ { State.reset with wrStatus := .fault }.cancelWr = false ∧
      ∃ t, step { State.reset with wrStatus := .fault } = .next t ∧ t.wrStatus = .fault := ⟨by decide, by decide, _, rfl, rfl⟩

theorem witness_FetchSelectsByTheState :
    ((fetching []).st = .fetch ∧ (fetching []).idx = (fetching []).len) ∧
      (afterE.st = .fetch ∧ afterE.idx < afterE.len ∧ afterE.msg[afterE.idx]? = some 0x45#8) ∧ betweenSpaces.st = .sep2 ∧
      { afterE with st := .load }.st = .load ∧ (atPattern 0x8000 0).st = .bit ∧ { afterE with st := .shift }.st = .shift ∧
      { afterE with st := .fin }.st = .fin ∧ { afterE with st := .next }.st = .next := by decide

theorem witness_StepRunsTheDecodedInstruction :
    (blockMoves afterE [] ∧ afterE.st ≠ .idle ∧ afterE.wait = 0#3 ∧ fetch afterE = .ok (.char 0x45#8) ∧
        decode afterE.cfg (.char 0x45#8) = .ok (.letterE false)) ∧
      (blockMoves { atPattern 0xB800 0 with events := [.block, .cancelWr true] } [.cancelWr true] ∧
        fetch { atPattern 0xB800 0 with events := [.block, .cancelWr true] } = .ok (.pat 0xB800)) ∧
      { afterE with events := [.command (port 3#3 [] 0)] }.events = [.command (port 3#3 [] 0)] ∧
      decode afterE.cfg (.cmd (port 3#3 [] 0)) = .ok .clrOvf := by
  refine ⟨⟨.inl ⟨rfl, rfl⟩, ?_⟩, ⟨.inr rfl, ?_⟩, ?_⟩ <;> decide

theorem witness_TickWhenNoEngineStepIsEnabled :
    (blockMoves State.reset [] ∧ State.reset.st = .idle) ∧
      (blockMoves { afterE with wait := 4#3, events := [.block] } [] ∧ { afterE with wait := 4#3 }.wait ≠ 0#3) :=
  ⟨⟨.inl ⟨rfl, rfl⟩, rfl⟩, .inr rfl, by decide⟩

theorem witness_CancelLevelChangesNothingElse :
    { afterE with events := [.cancelWr true] }.events = [.cancelWr true] ∧
      { afterE with events := [.cancelRd false, .block] }.events = .cancelRd false :: [.block] := ⟨rfl, rfl⟩

theorem witness_ResetStepSetsEverything :
    { afterE with events := [.reset { present := true, dotMs := 50#32 } (port 1#3 [] 0)] }.events =
      .reset { present := true, dotMs := 50#32 } (port 1#3 [] 0) :: [] := rfl

theorem witness_ConfigLoadTakesOneToTwoThousand :
    (1 ≤ (1#32).toInt ∧ (1#32).toInt ≤ 2000) ∧ (1 ≤ (2000#32).toInt ∧ (2000#32).toInt ≤ 2000) ∧
      ¬(1 ≤ (0#32).toInt ∧ (0#32).toInt ≤ 2000) ∧ ¬(1 ≤ (2001#32).toInt ∧ (2001#32).toInt ≤ 2000) ∧
      ¬({ present := false, dotMs := 100#32 } : ConfigPort).present = true := by decide

/-- A machine in the middle of a word, about to be reset. -/
theorem witness_ResetStateIsTheResetStepsResult :
    { afterE with events := [.reset { present := false, dotMs := 7#32 } (port 0#3 [] 0)] }.events =
        [.reset { present := false, dotMs := 7#32 } (port 0#3 [] 0)] ∧
      afterE.cancelWr = false ∧ afterE.cancelRd = false ∧ afterE.cfg = Config.standard ∧ afterE.rom = romTable Config.standard.patWidth := by decide

/-- Each kind of step answers a next state somewhere, so the whole-machine rules speak of real steps. -/
theorem witness_ConstantsNeverChange : nextIsReset afterE = false ∧ ∃ t, step afterE = .next t := ⟨rfl, _, rfl⟩

theorem witness_MessageIsFrozenWhileRunning :
    nextIsReset { afterE with events := [.command (port 1#3 [0x41#8] 0)] } = false ∧
      { afterE with events := [.command (port 1#3 [0x41#8] 0)] }.st ≠ .idle ∧
      ∃ t, step { afterE with events := [.command (port 1#3 [0x41#8] 0)] } = .next t := ⟨rfl, by decide, _, rfl⟩

theorem witness_IndexMovesOnlyByNext :
    (∃ t, step { afterE with st := .next } = .next t ∧ t.idx = 2) ∧ ∃ t, step afterE = .next t ∧ t.idx = 1 :=
  ⟨⟨_, rfl, rfl⟩, _, rfl, rfl⟩

theorem witness_PulseRisesOnlyInBitOne :
    ∃ t, step (atPattern 0xB800 0) = .next t ∧ (atPattern 0xB800 0).pulse = false ∧ t.pulse = true :=
  ⟨_, rfl, by decide, rfl⟩

theorem witness_OverflowFlagIsSticky :
    nextIsReset (withCap 1 [0x2E#8] afterE) = false ∧ ∃ t, step (withCap 1 [0x2E#8] afterE) = .next t ∧ t.ovf = true :=
  ⟨rfl, _, rfl, by decide⟩

theorem witness_QueueKeepsFifoOrder :
    nextIsReset { afterE with events := [.command (port 2#3 [] 1)] } = false ∧
      ∃ t, step { afterE with events := [.command (port 2#3 [] 1)] } = .next t ∧ t.out.bytes = [0x2E#8] ∧ t.q = [0x0A#8] :=
  ⟨rfl, _, rfl, by decide, by decide⟩

theorem witness_CommandsLeaveTheEngineAlone :
    { afterE with events := [.command (port 1#3 [0x41#8] 0)] }.events = .command (port 1#3 [0x41#8] 0) :: [] ∧
      (port 2#3 [] 1).code ≠ 1#3 ∧ afterE.st ≠ .idle ∧
      ∃ t, step { afterE with events := [.command (port 1#3 [0x41#8] 0)] } = .next t := ⟨rfl, by decide, by decide, _, rfl⟩

/-- One step of each outcome. -/
theorem witness_QuantumLengthInfluencesNothing :
    (nextIsReset afterE = false ∧ ∃ t, step afterE = .next t) ∧
      (nextIsReset { afterE with idx := 3 } = false ∧ step { afterE with idx := 3 } = .fault .nothingToFetch) ∧
      step { State.reset with cfg := bounded 0, events := [.command (port 1#3 [0x41#8] 0)] } = .refused .messageTooLong :=
  ⟨⟨rfl, _, rfl⟩, ⟨rfl, rfl⟩, rfl⟩

theorem afterE_inv : Inv afterE := by constructor <;> decide

/-- The middle of a run: three ON quanta of a dash shifted out. -/
theorem inDash_inv : Inv { atPattern 0x8000 3 with events := [.cancelWr true] } := by constructor <;> decide

theorem betweenSpaces_inv : Inv betweenSpaces := by constructor <;> decide

theorem witness_StepKeepsTheInvariant : Inv afterE ∧ ∃ t, step afterE = .next t := ⟨afterE_inv, _, rfl⟩

theorem witness_InvariantStatesNeverStop :
    Inv { atPattern 0x8000 3 with events := [.cancelWr true] } ∧
      scriptFits { atPattern 0x8000 3 with events := [.cancelWr true] } = true ∧
      scriptFits { State.reset with cfg := bounded 1, events := [.command (port 1#3 [0x41#8] 0)] } = true :=
  ⟨inDash_inv, by decide, by decide⟩

theorem witness_StepKeepsTheMemoryForm : Memory.wf afterE = true ∧ ∃ t, step afterE = .next t := ⟨by decide, _, rfl⟩

theorem witness_WaitLastsExactlyItsQuanta : { afterE with wait := 4#3 }.events = [] ∧ { afterE with wait := 4#3 }.wait ≠ 0#3 := by decide

theorem witness_PatternIsEmittedAndDecoded :
    { fetching [0x41#8] with st := .load }.events = [] ∧ { fetching [0x41#8] with st := .load }.st = .load ∧
      { fetching [0x41#8] with st := .load }.wait = 0#3 ∧ { fetching [0x41#8] with st := .load }.cancelWr = false ∧
      { fetching [0x41#8] with st := .load }.q.length ≤ { fetching [0x41#8] with st := .load }.cfg.queueCap ∧
      { fetching [0x41#8] with st := .load }.rom[(0 : Fin 26)] < 2 ^ { fetching [0x41#8] with st := .load }.cfg.patWidth := by
  decide

/-- Reset, then WRITE "E E" on the script. -/
def writing (message : List Byte) : State := { State.reset with events := [.command (port 1#3 message 0)] }

theorem witness_MessageIsEmittedAndDecoded :
    (writing [0x45#8, 0x20#8, 0x45#8]).events =
        [.command { code := 1#3, message := [0x45#8, 0x20#8, 0x45#8], maxCount := 0 }] ∧
      (writing [0x45#8, 0x20#8, 0x45#8]).st = .idle ∧ (writing [0x45#8, 0x20#8, 0x45#8]).pulse = false ∧
      (writing [0x45#8, 0x20#8, 0x45#8]).cancelWr = false ∧ 13 ≤ (writing [0x45#8, 0x20#8, 0x45#8]).cfg.patWidth ∧
      (writing [0x45#8, 0x20#8, 0x45#8]).rom = romTable (writing [0x45#8, 0x20#8, 0x45#8]).cfg.patWidth ∧
      (writing [0x45#8, 0x20#8, 0x45#8]).cfg.fits 3 = true ∧
      (writing [0x45#8, 0x20#8, 0x45#8]).q.length ≤ (writing [0x45#8, 0x20#8, 0x45#8]).cfg.queueCap := by decide

theorem witness_EveryWriteTerminates :
    { writing [0x41#8] with cancelWr := true }.events = [.command { code := 1#3, message := [0x41#8], maxCount := 0 }] ∧
      { writing [0x41#8] with cancelWr := true }.st = .idle ∧ { writing [0x41#8] with cancelWr := true }.cfg.fits 1 = true ∧
      ∀ k : Fin 26, (writing [0x41#8]).rom[k] < 2 ^ (writing [0x41#8]).cfg.patWidth := by decide

/-- V125: WRITE " 1 " with the cancel level. -/
theorem witness_MessageWithoutLettersIsSilent :
    { writing [0x20#8, 0x31#8, 0x20#8] with cancelWr := true }.events =
        [.command { code := 1#3, message := [0x20#8, 0x31#8, 0x20#8], maxCount := 0 }] ∧
      (writing [0x20#8, 0x31#8, 0x20#8]).st = .idle ∧ (writing [0x20#8, 0x31#8, 0x20#8]).cfg.fits 3 = true ∧
      ∀ b ∈ [0x20#8, 0x31#8, 0x20#8], isLetterByte b = false := by decide

/-- A ring of four places whose two symbols wrap around its end. -/
theorem witness_RingStandsForTheQueue :
    ({ mem := [0x2D#8, 0#8, 0#8, 0x2E#8], head := 3, count := 2 } : Ring).wf = true ∧
      ({ mem := [0x2D#8, 0#8, 0#8, 0x2E#8], head := 3, count := 2 } : Ring).toQueue = [0x2E#8, 0x2D#8] ∧
      2 ≤ ({ mem := [0x2D#8, 0#8, 0#8, 0x2E#8], head := 3, count := 2 } : Ring).count := by decide

/-- V48: what WRITE "E E" amounts to, by the spec's vector. -/
theorem test_denotation_of_e_e :
    messageSymbols Config.standard [0x45#8, 0x20#8, 0x45#8] = [0x2E#8, 0x20#8, 0x20#8, 0x2E#8] ∧
      messageWave Config.standard [0x45#8, 0x20#8, 0x45#8] =
        [true, false, false, false, false, false, false, false, true, false] ∧
      messageQuanta Config.standard [0x45#8, 0x20#8, 0x45#8] = 10 := by decide

end Sys2Proof.Tests
end

section
/-! PROOFS. The statements on the scope: who moves and what its turn runs (00_scope R9), how long a wait lasts (10_state R23),
and what the ranges of 00_scope R6 give the reader. -/

namespace Sys2Proof.Machine

/-! ### The block's own turn -/

/-- Whether the script is empty or names it, the block's move is its turn from the opened state (00_scope R9). -/
theorem step_of_blockMoves (s : State) (rest : List Event) (hb : blockMoves s rest) :
    step s = blockTurn (openStep rest s) := by
  rcases hb with ⟨he, rfl⟩ | he
  · exact step_of_no_events s he
  · exact step_of_event s .block rest he

/-- What the engine fetches depends on neither the script nor the last output. -/
theorem fetch_openStep (rest : List Event) (s : State) : fetch (openStep rest s) = fetch s := rfl

/-- The block's move with an engine step enabled runs what is fetched (00_scope R9 (1)). -/
theorem step_engine (s : State) (rest : List Event) (x : Selector) (i : Instr) (hb : blockMoves s rest)
    (hst : s.st ≠ .idle) (hw : s.wait = 0#3) (hf : fetch s = .ok x) (hd : decode s.cfg x = .ok i) :
    step s = exec i (openStep rest s) := by
  have hen : engineEnabled (openStep rest s) = true := (engineEnabled_iff _).2 ⟨hst, hw⟩
  have hfo : fetch (openStep rest s) = .ok x := (fetch_openStep rest s).trans hf
  rw [step_of_blockMoves s rest hb]
  exact blockTurn_engine _ x i hen hfo hd

/-- A command of the script that decodes runs, whatever the engine is doing (00_scope R9 (3)). -/
theorem step_command (s : State) (rest : List Event) (p : CommandPort) (i : Instr) (he : s.events = .command p :: rest)
    (hd : decode s.cfg (.cmd p) = .ok i) : step s = exec i (openStep rest s) := by
  rw [step_of_event s (.command p) rest he]
  exact runSelector_ok (.cmd p) i (openStep rest s) hd

/-- Settles O36: the engine's clause and the command's clause. -/
theorem stepRunsTheDecodedInstruction : Obligations.StepRunsTheDecodedInstruction :=
  ⟨step_engine, step_command⟩

/-- The block's move with no engine step enabled is a `TICK` (00_scope R9 (2)). -/
theorem step_tick (s : State) (rest : List Event) (hb : blockMoves s rest) (h : s.st = .idle ∨ s.wait ≠ 0#3) :
    step s = .next (tick (openStep rest s)) := by
  have hdis : ¬ engineEnabled (openStep rest s) = true := fun hen => by
    obtain ⟨hst, hw⟩ := (engineEnabled_iff _).1 hen
    exact h.elim hst fun hne => hne hw
  rw [step_of_blockMoves s rest hb]
  exact blockTurn_tick _ (Bool.eq_false_iff.2 hdis)

/-- Settles O37: `step_tick`, with the fields of the tick written out. -/
theorem tickWhenNoEngineStepIsEnabled : Obligations.TickWhenNoEngineStepIsEnabled :=
  step_tick

/-! ### Runs and waits -/

/-- A run whose first step answers `t` shows what `t` shows, then what the run from `t` shows. -/
theorem runOutputs_succ {n : Nat} {s t u : State} {outs : List Output} (hs : step s = .next t)
    (hr : runOutputs n t = some (outs, u)) : runOutputs (n + 1) s = some (t.out :: outs, u) := by
  simp only [runOutputs, hs, hr]

/-- Alone and waiting, the block counts `wait` down by one and shows the level (10_state R23). -/
theorem step_waiting (s : State) (he : s.events = []) (hw : s.wait ≠ 0#3) :
    step s = .next { s with wait := s.wait - 1#3, out := .quantum s.pulse } := by
  rw [step_tick s [] (.inl ⟨he, rfl⟩) (.inr hw), tick, openStep_wait, if_neg hw, openStep, he]

/-- A wait of `n + 1` quanta, by induction on `n`: each step shows one quantum of the same level and leaves a wait of `n`. -/
theorem runOutputs_waiting (n : Nat) : ∀ s : State, s.events = [] → s.wait.toNat = n + 1 →
    runOutputs (n + 1) s =
      some (List.replicate (n + 1) (.quantum s.pulse), { s with wait := 0#3, out := .quantum s.pulse }) := by
  induction n with
  | zero =>
    intro s he hw
    have hone : s.wait = 1#3 := BitVec.eq_of_toNat_eq hw
    have hstep := step_waiting s he (by rw [hone]; decide)
    rw [hone] at hstep
    exact runOutputs_succ hstep rfl
  | succ n ih =>
    intro s he hw
    have hstep := step_waiting s he (by intro h; simp [h] at hw)
    have hleft : (s.wait - 1#3).toNat = n + 1 := by bv_omega
    exact runOutputs_succ hstep (ih _ he hleft)

/-- Settles O54: `runOutputs_waiting` at the quanta that `wait` holds. -/
theorem waitLastsExactlyItsQuanta : Obligations.WaitLastsExactlyItsQuanta := by
  intro s he hw
  obtain ⟨n, hn⟩ : ∃ n, s.wait.toNat = n + 1 :=
    Nat.exists_eq_succ_of_ne_zero fun h => hw (BitVec.eq_of_toNat_eq h)
  rw [hn]
  exact runOutputs_waiting n s he hn

/-! ### The greatest read -/

/-- The capacity is a number of the `rd_max` port (00_scope R6, D23). -/
theorem queueCap_lt_of_valid (c : Config) (h : c.valid = true) : c.queueCap < 2 ^ c.rdMaxBits := by
  simp only [Config.valid, Bool.and_eq_true, decide_eq_true_eq] at h
  obtain ⟨⟨-, hport⟩, -⟩ := h
  exact hport

/-- Closing a batch stays within the capacity: the newline is dropped when there is no room (43_queue_and_reader R193, R190). -/
theorem closedQueue_length_le (s : State) (h : s.q.length ≤ s.cfg.queueCap) :
    (closedQueue s).length ≤ s.cfg.queueCap := by
  unfold closedQueue
  split
  · exact h
  · rename_i hroom
    simp only [not_or, not_le] at hroom
    obtain ⟨-, -, hlt⟩ := hroom
    simpa using hlt

/-- An uncancelled drain copies out the head of the closed batch and leaves the rest (43_queue_and_reader R193). -/
theorem drain_of_not_cancelled (n : Nat) (s : State) (hc : s.cancelRd = false) :
    drain n s =
      .ok ((closedQueue s).take n, { s with q := (closedQueue s).drop n, ovf := closedOvf s, lock := .free }) := by
  rw [drain_eq, if_neg (Bool.eq_false_iff.1 hc), release_closeBatch, closeBatch_q]

/-- An uncancelled `READ` takes from the head of the closed batch and answers what it took (44_host_commands R208). -/
theorem exec_read_of_not_cancelled (n : Nat) (s : State) (hc : s.cancelRd = false) :
    exec (.read n) s =
      .next (respond { status := .ok, count := ((closedQueue s).take n).length, data := (closedQueue s).take n }
        { s with q := (closedQueue s).drop n, ovf := closedOvf s, lock := .free }) := by
  simp only [exec, execRead, drain_of_not_cancelled n s hc]

/-- Settles O60: the closed batch is within the capacity, and the greatest `max_count` is no less than that. -/
theorem greatestReadEmptiesTheQueue : Obligations.GreatestReadEmptiesTheQueue := by
  intro s hv hq hc
  have hport := queueCap_lt_of_valid s.cfg hv
  have hbatch : (closedQueue s).length ≤ 2 ^ s.cfg.rdMaxBits - 1 := by
    have := closedQueue_length_le s hq
    omega
  refine ⟨?_, _, exec_read_of_not_cancelled _ s hc, ?_, ?_⟩
  · exact decide_eq_true (by omega)
  · exact List.drop_of_length_le hbatch
  · exact List.take_of_length_le hbatch

end Sys2Proof.Machine
end

section
/-! PROOFS. The statements on the state (10_state): the invariant of R44, what each step leaves alone, and the hidden ring
of R39. -/

namespace Sys2Proof.Machine

/-! ### The form of the memories -/

/-- A symbol enqueued keeps the form of the memories (43_queue_and_reader R190). -/
theorem enqueued_keeps_memory_wf (c : Byte) (s : State) (hc : isSymbol c = true) (h : Memory.wf s = true) :
    Memory.wf (enqueued c s) = true := by
  rw [← release_push_eq]
  exact release_keeps_memory_wf _ (push_keeps_memory_wf c s hc h)

/-- What a flush enqueues is a symbol (30_encoding R100). -/
theorem flushed_keeps_memory_wf (n : RunLength) (s : State) (h : Memory.wf s = true) :
    Memory.wf (flushed n s) = true := by
  rcases flushed_cases n s with ⟨-, he⟩ | ⟨-, he⟩ | ⟨-, -, he⟩ <;> rw [he]
  · exact enqueued_keeps_memory_wf symDot s rfl h
  · exact enqueued_keeps_memory_wf symDash s rfl h
  · exact h

/-- The state an uncancelled drain of `n` symbols leaves (43_queue_and_reader R193). -/
abbrev drained (n : Nat) (s : State) : State :=
  { s with q := (closedQueue s).drop n, ovf := closedOvf s, lock := .free }

theorem drained_keeps_memory_wf (n : Nat) (s : State) (h : Memory.wf s = true) : Memory.wf (drained n s) = true :=
  drain_keeps_memory_wf n { s with cancelRd := false } { drained n s with cancelRd := false } _
    (memory_wf_congr s _ rfl rfl rfl rfl h) (drain_of_not_cancelled n _ rfl)

theorem engineRow_keeps_memory_wf {s t : State} (hr : EngineRow s t) (h : Memory.wf s = true) : Memory.wf t = true := by
  cases hr with
  | wordLetter | opening | sep2 =>
    exact memory_wf_congr (enqueued symSpace s) _ rfl rfl rfl rfl (enqueued_keeps_memory_wf symSpace s rfl h)
  | bit0 | fin =>
    exact memory_wf_congr (flushed s.ones s) _ rfl rfl rfl rfl (flushed_keeps_memory_wf s.ones s h)
  | _ => exact memory_wf_congr s _ rfl rfl rfl rfl h

theorem commandRow_keeps_memory_wf {s t : State} {code : BitVec 3} (hr : CommandRow s code t)
    (h : Memory.wf s = true) : Memory.wf t = true := by
  cases hr with
  | accepted m => exact memory_wf_congr (acceptWrite m s) _ rfl rfl rfl rfl (acceptWrite_keeps_memory_wf m s h)
  | read n => exact memory_wf_congr (drained n s) _ rfl rfl rfl rfl (drained_keeps_memory_wf n s h)
  | _ => exact memory_wf_congr s _ rfl rfl rfl rfl h

theorem openStep_keeps_memory_wf (rest : List Event) (s : State) (h : Memory.wf s = true) :
    Memory.wf (openStep rest s) = true :=
  memory_wf_congr s _ rfl rfl rfl rfl h

/-- Settles O53, by the rows of a step. -/
theorem stepKeepsTheMemoryForm : Obligations.StepKeepsTheMemoryForm := by
  intro s t h ht
  cases step_row s t ht with
  | engine rest _ _ _ _ hr => exact engineRow_keeps_memory_wf hr (openStep_keeps_memory_wf rest s h)
  | command rest _ _ _ hr => exact commandRow_keeps_memory_wf hr (openStep_keeps_memory_wf rest s h)
  | reset rest p => exact resetStep_has_memory_wf p (openStep rest s)
  | tick | cancelWr | cancelRd => exact memory_wf_congr s _ rfl rfl rfl rfl h

/-! ### No two newlines in a row -/

theorem noAdjacentNewlines_append (c : Byte) (q : List Byte) (h : noAdjacentNewlines q = true)
    (hc : q.getLast? = some symNewline → c ≠ symNewline) : noAdjacentNewlines (q ++ [c]) = true := by
  induction q using noAdjacentNewlines.induct with
  | case1 => rfl
  | case2 a =>
    by_cases ha : a = symNewline
    · simp [noAdjacentNewlines, hc (by simp [ha])]
    · simp [noAdjacentNewlines, ha]
  | case3 a b rest ih =>
    simp only [noAdjacentNewlines, Bool.and_eq_true] at h
    obtain ⟨hab, hrest⟩ := h
    have hlast : (a :: b :: rest).getLast? = (b :: rest).getLast? := List.getLast?_cons_cons
    simp only [List.cons_append, noAdjacentNewlines, Bool.and_eq_true]
    exact ⟨hab, ih hrest (hlast ▸ hc)⟩

theorem noAdjacentNewlines_tail (q : List Byte) (h : noAdjacentNewlines q = true) : noAdjacentNewlines q.tail = true := by
  match q, h with
  | [], _ => rfl
  | [_], _ => rfl
  | _ :: _ :: _, h => exact (Bool.and_eq_true_iff.1 h).2

theorem noAdjacentNewlines_drop (n : Nat) (q : List Byte) (h : noAdjacentNewlines q = true) :
    noAdjacentNewlines (q.drop n) = true := by
  induction n with
  | zero => exact h
  | succ n ih =>
    rw [← List.tail_drop]
    exact noAdjacentNewlines_tail _ ih

/-- The drain's newline never follows another (43_queue_and_reader R193). -/
theorem noAdjacentNewlines_closedQueue (s : State) (h : noAdjacentNewlines s.q = true) :
    noAdjacentNewlines (closedQueue s) = true := by
  unfold closedQueue
  split
  · exact h
  · rename_i hopen
    simp only [not_or] at hopen
    obtain ⟨-, hlast, -⟩ := hopen
    exact noAdjacentNewlines_append symNewline s.q h fun hl => absurd hl hlast

/-! ### The invariant: one rule per update of the state -/

section
variable {s t : State}

theorem memory_wf_of_inv (h : Inv s) : Memory.wf s = true :=
  (Memory_wf_iff s).2 ⟨h.msgLength, h.queueFits, h.queueSymbols⟩

theorem inPattern_eq_false_iff (s : State) :
    inPattern s = false ↔ s.st ≠ .bit ∧ s.st ≠ .shift ∧ s.st ≠ .fin := by
  simp [inPattern, and_assoc]

/-- The level is OFF outside a letter's pattern (40_pulse_generator R132). -/
theorem pulse_off_of_inv (h : Inv s) (hout : inPattern s = false) : s.pulse = false := by
  rw [h.pulseLevel, hout, Bool.false_and]

theorem inv_openStep (h : Inv s) (rest : List Event) : Inv (openStep rest s) := { h with }

theorem inv_out (h : Inv s) (o : Output) : Inv { s with out := o } := { h with }

theorem inv_cancelWr (h : Inv s) (level : Bool) : Inv { s with cancelWr := level } := { h with }

theorem inv_cancelRd (h : Inv s) (level : Bool) : Inv { s with cancelRd := level } := { h with }

/-- The engine enqueues only while a write is in progress, and never a newline. -/
theorem inv_enqueued (h : Inv s) (c : Byte) (hsym : isSymbol c = true) (hnl : c ≠ symNewline) (hrun : s.st ≠ .idle) :
    Inv (enqueued c s) := by
  obtain ⟨-, hfits, hsyms⟩ := (Memory_wf_iff _).1 (enqueued_keeps_memory_wf c s hsym (memory_wf_of_inv h))
  refine { h with queueFits := hfits, queueSymbols := hsyms, lockFree := rfl, queueNewlines := ?_,
                  idleNotDone := fun hidle => absurd hidle hrun }
  rw [enqueued_q]
  split
  · exact noAdjacentNewlines_append c s.q h.queueNewlines fun _ => hnl
  · exact h.queueNewlines

theorem inv_flushed (h : Inv s) (n : RunLength) (hrun : s.st ≠ .idle) : Inv (flushed n s) := by
  rcases flushed_cases n s with ⟨-, he⟩ | ⟨-, he⟩ | ⟨-, -, he⟩ <;> rw [he]
  · exact inv_enqueued h symDot rfl (by decide) hrun
  · exact inv_enqueued h symDash rfl (by decide) hrun
  · exact h

theorem inv_wait (h : Inv s) (w : BitVec 3) (hw : w.toNat ≤ 4) (hrun : s.st ≠ .idle) : Inv { s with wait := w } :=
  { h with
    idleWait := fun hidle => absurd hidle hrun
    waitBound := hw
    idleNotDone := fun hidle => absurd hidle hrun }

/-- A quantum that passes counts `wait` down while a write is in progress, and changes nothing in IDLE (10_state R23). -/
theorem inv_tick (h : Inv s) : Inv (tick s) := by
  by_cases hw : s.wait = 0#3
  · have htick : tick s = { s with out := .quantum s.pulse } := by rw [tick, if_pos hw, ← hw]
    rw [htick]
    exact inv_out h _
  · have hrun : s.st ≠ .idle := fun hidle => hw (h.idleWait hidle)
    have hle : (s.wait - 1#3).toNat ≤ 4 := by
      have := h.waitBound
      bv_omega
    rw [tick, if_neg hw]
    exact inv_out (inv_wait h _ hle hrun) _

theorem inv_k (h : Inv s) (kk : Fin 26) (hrun : s.st ≠ .idle) : Inv { s with k := kk } :=
  { h with idleNotDone := fun hidle => absurd hidle hrun }

/-- A running engine goes to a state outside a letter's pattern, with the level OFF and a byte to process unless it fetches. -/
theorem inv_goto (h : Inv s) (st' : EngineState) (p : Bool) (hp : p = false) (hrun : s.st ≠ .idle)
    (hto : st' ∈ [EngineState.fetch, .sep2, .load, .next]) (hi : st' ≠ .fetch → s.idx < s.len)
    (hsep : st' = .sep2 → s.first = false) : Inv { s with pulse := p, st := st' } := by
  have hidle : st' ≠ .idle := by rintro rfl; simp at hto
  have hbit : st' ≠ .bit := by rintro rfl; simp at hto
  have hshift : st' ≠ .shift := by rintro rfl; simp at hto
  have hfin : st' ≠ .fin := by rintro rfl; simp at hto
  have hout : inPattern { s with pulse := p, st := st' } = false := (inPattern_eq_false_iff _).2 ⟨hbit, hshift, hfin⟩
  exact
  { h with
    idleWait := fun he => absurd he hidle
    pulseLevel := by rw [hout, Bool.false_and]; exact hp
    bitShifted := fun he => absurd he hbit
    shiftShifted := fun he => absurd he hshift
    idxRunning := fun _ => hi
    sep2NotFirst := hsep
    runningNotDone := fun _ => h.runningNotDone hrun
    idleNotDone := fun he => absurd he hidle }

/-- Moving on within FETCH (42_sequencer R181). -/
theorem inv_idx (h : Inv s) (i : Nat) (hfetch : s.st = .fetch) (hi : i ≤ s.len) : Inv { s with idx := i } :=
  { h with
    idxBound := hi
    idxRunning := fun _ hne => absurd hfetch hne
    idleNotDone := fun hidle => absurd (hfetch.symm.trans hidle) (by decide) }

/-- The end of a write, completed or interrupted (42_sequencer R182, 60_exceptions R224). -/
theorem inv_finished (h : Inv s) (p : Bool) (w : BitVec 3) (r : Status) (n : Nat) (hp : p = false) (hw : w = 0#3)
    (hr : r ≠ .busy) : Inv { s with pulse := p, wait := w, st := .idle, wrDone := true, wrStatus := r, wrCount := n } :=
  { h with
    idleWait := fun _ => hw
    pulseLevel := hp
    bitShifted := nofun
    shiftShifted := nofun
    idxRunning := fun he => absurd rfl he
    sep2NotFirst := nofun
    waitBound := by simp [hw]
    runningNotDone := fun he => absurd rfl he
    idleNotDone := nofun
    statusNotBusy := hr }

/-- A word boundary opens only after a letter (42_sequencer R178, R180). -/
theorem inv_boundary (h : Inv s) (hrun : s.st ≠ .idle) (hf : s.first = false) : Inv { s with bdone := true } :=
  { h with
    firstNoBoundary := fun ht => absurd (hf.symm.trans ht) (by decide)
    idleNotDone := fun hidle => absurd hidle hrun }

/-- LOAD enters a pattern with an empty run (40_pulse_generator R120). -/
theorem inv_load (h : Inv s) (hst : s.st = .load) :
    Inv { s with pat := readRom s s.k, ones := 0, first := false, bdone := false, st := .bit } :=
  have hoff : s.pulse = false := pulse_off_of_inv h ((inPattern_eq_false_iff s).2 (by simp [hst]))
  { h with
    idleWait := nofun
    pulseLevel := hoff
    onesBound := Nat.zero_le _
    patFits := h.romFits s.k
    bitShifted := fun _ => one_dvd _
    shiftShifted := nofun
    idxRunning := fun _ _ => h.idxRunning (by simp [hst]) (by simp [hst])
    firstNoBoundary := fun _ => rfl
    sep2NotFirst := fun _ => rfl
    runningNotDone := fun _ => h.runningNotDone (by simp [hst])
    idleNotDone := nofun }

/-- A change of the pattern registers on the way from one state of a letter's pattern to another. -/
theorem inv_inPattern (h : Inv s) (st' : EngineState) (p : Bool) (pat' : Pattern) (ones' : RunLength) (hfrom : inPattern s = true)
    (hto : inPattern { s with st := st' } = true) (hp : p = (ones' != 0)) (hones : ones' ≤ s.cfg.patWidth)
    (hpat : pat' < 2 ^ s.cfg.patWidth) (hbit : st' = .bit → 2 ^ ones' ∣ pat')
    (hshift : st' = .shift → 2 ^ (ones' - 1) ∣ pat') :
    Inv { s with pat := pat', ones := ones', pulse := p, st := st' } := by
  have hidle : st' ≠ .idle := by rintro rfl; cases hto
  have hrun : s.st ≠ .idle := by intro he; simp [inPattern, he] at hfrom
  have hfetch : s.st ≠ .fetch := by intro he; simp [inPattern, he] at hfrom
  have hsep : st' ≠ .sep2 := by rintro rfl; cases hto
  exact
  { h with
    idleWait := fun he => absurd he hidle
    pulseLevel := by
      have hto' : inPattern { s with pat := pat', ones := ones', pulse := p, st := st' } = true := hto
      rw [hto', Bool.true_and]
      exact hp
    onesBound := hones
    patFits := hpat
    bitShifted := hbit
    shiftShifted := hshift
    idxRunning := fun _ _ => h.idxRunning hrun hfetch
    sep2NotFirst := fun he => absurd he hsep
    runningNotDone := fun _ => h.runningNotDone hrun
    idleNotDone := fun he => absurd he hidle }

/-- A word of `W` bits that is not zero and ends in `n` zeros has `n < W`. -/
theorem lt_width_of_pow_dvd {n w : Nat} {p : Pattern} (hp : p ≠ 0) (hw : p < 2 ^ w) (hd : 2 ^ n ∣ p) : n < w :=
  (Nat.pow_lt_pow_iff_right (by decide)).1 ((Nat.le_of_dvd (Nat.pos_of_ne_zero hp) hd).trans_lt hw)

/-- The shift adds a zero at the bottom (40_pulse_generator R126). -/
theorem pow_dvd_shiftPattern (c : Config) (n : Nat) (p : Pattern) (hn : n ≤ c.patWidth) (hd : 2 ^ (n - 1) ∣ p) :
    2 ^ n ∣ shiftPattern c p := by
  have hdouble : 2 ^ n ∣ p * 2 := by
    cases n with
    | zero => exact one_dvd _
    | succ n => exact pow_succ 2 n ▸ Nat.mul_dvd_mul_right hd 2
  exact (Nat.dvd_mod_iff (Nat.pow_dvd_pow 2 hn)).2 hdouble

/-- Inside a pattern the level is ON exactly when the run of 1s is not empty (40_pulse_generator R132). -/
theorem pulse_inPattern_of_inv (h : Inv s) (hin : inPattern s = true) : s.pulse = (s.ones != 0) := by
  rw [h.pulseLevel, hin, Bool.true_and]

theorem inv_finSel (h : Inv s) (hst : s.st = .bit) : Inv { s with st := .fin } := by
  have hin : inPattern s = true := by simp [inPattern, hst]
  exact inv_inPattern h .fin s.pulse s.pat s.ones hin rfl (pulse_inPattern_of_inv h hin) h.onesBound h.patFits
    nofun nofun

/-- A 1 bit lengthens the run, which the zeros at the pattern's bottom still bound (40_pulse_generator R122). -/
theorem inv_bit1 (h : Inv s) (hst : s.st = .bit) (hp : s.pat ≠ 0) :
    Inv { s with pulse := true, ones := s.ones + 1, st := .shift } := by
  have hin : inPattern s = true := by simp [inPattern, hst]
  have hd : 2 ^ s.ones ∣ s.pat := h.bitShifted hst
  exact inv_inPattern h .shift true s.pat (s.ones + 1) hin rfl (by simp) (lt_width_of_pow_dvd hp h.patFits hd) h.patFits
    nofun (fun _ => hd)

/-- A 0 bit ends the run (40_pulse_generator R123). -/
theorem inv_bit0 (h : Inv s) (hst : s.st = .bit) : Inv { s with pulse := false, ones := 0, st := .shift } := by
  have hin : inPattern s = true := by simp [inPattern, hst]
  exact inv_inPattern h .shift false s.pat 0 hin rfl rfl (Nat.zero_le _) h.patFits
    nofun (fun _ => one_dvd _)

theorem inv_shift (h : Inv s) (hst : s.st = .shift) : Inv { s with pat := shiftPattern s.cfg s.pat, st := .bit } := by
  have hin : inPattern s = true := by simp [inPattern, hst]
  exact inv_inPattern h .bit s.pulse (shiftPattern s.cfg s.pat) s.ones hin rfl (pulse_inPattern_of_inv h hin) h.onesBound
    (shiftPattern_lt _ _) (fun _ => pow_dvd_shiftPattern _ _ _ h.onesBound (h.shiftShifted hst)) nofun

/-- What the command rows do to an untouched state leaves it untouched (10_state R44 (j)). -/
theorem untouched_of_empty_queue (q' : List Byte) (o : Bool) (l : Lock) (hq : s.q = [] → q' = [])
    (ho : s.q = [] → s.ovf = false → o = false) (h : untouched s = true) :
    untouched { s with q := q', ovf := o, lock := l } = true := by
  have hempty : s.q = [] ∧ s.ovf = false := by
    simp only [untouched, Bool.and_eq_true, beq_iff_eq, Bool.not_eq_true'] at h
    exact ⟨h.2, by tauto⟩
  simp_all [untouched]

/-- READ (44_host_commands R208): a drain of an empty queue changes nothing (43_queue_and_reader R193). -/
theorem inv_drained (h : Inv s) (n : Nat) : Inv (drained n s) := by
  obtain ⟨-, hfits, hsyms⟩ := (Memory_wf_iff _).1 (drained_keeps_memory_wf n s (memory_wf_of_inv h))
  exact
  { h with
    queueFits := hfits
    queueSymbols := hsyms
    queueNewlines := noAdjacentNewlines_drop n _ (noAdjacentNewlines_closedQueue s h.queueNewlines)
    lockFree := rfl
    idleNotDone := fun hidle hd =>
      untouched_of_empty_queue _ _ _ (fun hq => by simp [closedQueue, hq]) (fun hq ho => by simp [closedOvf, hq, ho])
        (h.idleNotDone hidle hd) }

/-- CLR_OVF (44_host_commands R210). -/
theorem inv_clearOvf (h : Inv s) : Inv { s with ovf := false } :=
  { h with
    idleNotDone := fun hidle hd =>
      untouched_of_empty_queue s.q false s.lock id (fun _ _ => rfl) (h.idleNotDone hidle hd) }

/-- An accepted WRITE (44_host_commands R206). -/
theorem inv_acceptWrite (h : Inv s) (m : List Byte) (hidle : s.st = .idle) : Inv (acceptWrite m s) :=
  have hoff : s.pulse = false := pulse_off_of_inv h ((inPattern_eq_false_iff s).2 (by simp [hidle]))
  { h with
    idleWait := nofun
    pulseLevel := hoff
    bitShifted := nofun
    shiftShifted := nofun
    idxBound := Nat.zero_le _
    idxRunning := fun _ hne => absurd rfl hne
    msgLength := rfl
    firstNoBoundary := fun _ => rfl
    sep2NotFirst := nofun
    waitBound := Nat.zero_le _
    runningNotDone := fun _ => rfl
    idleNotDone := nofun }

/-- The configuration load is in range whatever is supplied (44_host_commands R212). -/
theorem configDotMs_range (p : ConfigPort) : 1 ≤ (configDotMs p).toNat ∧ (configDotMs p).toNat ≤ 2000 := by
  unfold configDotMs
  split
  · rename_i hv
    simp only [configValid, Bool.and_eq_true, decide_eq_true_eq] at hv
    obtain ⟨⟨-, hmin⟩, hmax⟩ := hv
    simp only [dotMsMin, dotMsMax, BitVec.toInt_eq_toNat_cond] at hmin hmax
    rw [BitVec.toNat_setWidth]
    split at hmin <;> omega
  · decide

/-- After a reset nothing is left of the state before but the table and the parameters (70_reset_and_hazards R250). -/
theorem inv_resetStep (p : ConfigPort) (s : State) (hrom : ∀ k : Fin 26, s.rom[k] < 2 ^ s.cfg.patWidth) :
    Inv (resetStep p s) where
  queueFits := Nat.zero_le _
  queueSymbols := rfl
  queueNewlines := rfl
  idleWait _ := rfl
  pulseLevel := rfl
  onesBound := Nat.zero_le _
  patFits := Nat.two_pow_pos _
  romFits := hrom
  bitShifted := nofun
  shiftShifted := nofun
  idxBound := le_rfl
  idxRunning hne := absurd rfl hne
  msgLength := rfl
  lockFree := rfl
  firstNoBoundary _ := rfl
  sep2NotFirst := nofun
  waitBound := Nat.zero_le _
  dotMsRange := configDotMs_range p
  runningNotDone hne := absurd rfl hne
  idleNotDone _ _ := rfl
  statusNotBusy := nofun

/-! ### The invariant: the rows of a step -/

/-- Every row of the engine keeps the invariant (42_sequencer R186). -/
theorem inv_of_engineRow (h : Inv s) (hw : s.wait = 0#3) (hr : EngineRow s t) : Inv t := by
  have off (hst : s.st = .fetch ∨ s.st = .sep2 ∨ s.st = .next) : s.pulse = false :=
    pulse_off_of_inv h ((inPattern_eq_false_iff s).2 (by rcases hst with hst | hst | hst <;> simp [hst]))
  have spaced (hrun : s.st ≠ .idle) : Inv (enqueued symSpace s) := inv_enqueued h symSpace rfl (by decide) hrun
  cases hr with
  | complete hst => exact inv_finished h s.pulse s.wait .ok s.len (off (.inl hst)) hw nofun
  | firstLetter kk hst hi =>
    have hrun : s.st ≠ .idle := by simp [hst]
    have hk := inv_k h kk hrun
    exact (inv_goto hk .load s.pulse (off (.inl hst)) hrun (by decide) (fun _ => hi) nofun :)
  | boundaryLetter kk hst hi =>
    have hrun : s.st ≠ .idle := by simp [hst]
    have hk := inv_wait (inv_k h kk hrun) 2#3 (by decide) hrun
    exact (inv_goto hk .load s.pulse (off (.inl hst)) hrun (by decide) (fun _ => hi) nofun :)
  | wordLetter kk hst hi =>
    have hrun : s.st ≠ .idle := by simp [hst]
    have hk := inv_wait (inv_k (spaced hrun) kk hrun) 2#3 (by decide) hrun
    exact (inv_goto hk .load s.pulse (off (.inl hst)) hrun (by decide) (fun _ => hi) nofun :)
  | skip hst hi =>
    exact inv_goto h .next s.pulse (off (.inl hst)) (by simp [hst]) (by decide) (fun _ => hi) nofun
  | opening hst hi hf =>
    have hrun : s.st ≠ .idle := by simp [hst]
    exact (inv_goto (spaced hrun) .sep2 s.pulse (off (.inl hst)) hrun (by decide) (fun _ => hi) (fun _ => hf) :)
  | sep2 hst =>
    have hrun : s.st ≠ .idle := by simp [hst]
    have hi : s.idx < s.len := h.idxRunning hrun (by simp [hst])
    have hb := inv_wait (inv_boundary (spaced hrun) hrun (h.sep2NotFirst hst)) 4#3 (by decide) hrun
    exact (inv_goto hb .next s.pulse (off (.inr (.inl hst))) hrun (by decide) (fun _ => hi) nofun :)
  | load hst => exact inv_load h hst
  | finSel hst => exact inv_finSel h hst
  | bit1 hst hp => exact (inv_wait (inv_bit1 h hst hp) 1#3 (by decide) nofun :)
  | bit0 hst =>
    have hq : Inv (flushed s.ones s) := inv_flushed h s.ones (by simp [hst])
    exact (inv_wait (inv_bit0 hq (by simp [hst])) 1#3 (by decide) nofun :)
  | shift hst => exact inv_shift h hst
  | fin hst =>
    have hrun : (flushed s.ones s).st ≠ .idle := by simp [hst]
    have hq : Inv (flushed s.ones s) := inv_flushed h s.ones (by simp [hst])
    have hi : (flushed s.ones s).idx < (flushed s.ones s).len := hq.idxRunning hrun (by simp [hst])
    exact (inv_goto (inv_wait hq 1#3 (by decide) hrun) .next false rfl hrun (by decide) (fun _ => hi) nofun :)
  | next hst =>
    have hi : s.idx < s.len := h.idxRunning (by simp [hst]) (by simp [hst])
    have hg := inv_goto h .fetch s.pulse (off (.inr (.inr hst))) (by simp [hst]) (by decide) (fun hne => absurd rfl hne) nofun
    exact (inv_idx hg (s.idx + 1) rfl hi :)
  | fault => exact inv_finished h false 0#3 .fault 0 rfl rfl nofun

/-- Every host command keeps the invariant (44_host_commands R206 to R211). -/
theorem inv_of_commandRow {code : BitVec 3} (h : Inv s) (hr : CommandRow s code t) : Inv t := by
  cases hr with
  | answer | refused | readFault => exact inv_out h _
  | accepted m _ hidle => exact (inv_out (inv_acceptWrite h m hidle) _ :)
  | read n => exact (inv_out (inv_drained h n) _ :)
  | clrOvf => exact (inv_out (inv_clearOvf h) _ :)

end

/-- Settles O51, by the rows of a step. -/
theorem stepKeepsTheInvariant : Obligations.StepKeepsTheInvariant := by
  intro s t h ht
  cases step_row s t ht with
  | tick rest => exact inv_tick (inv_openStep h rest)
  | engine rest _ _ _ hw hr => exact inv_of_engineRow (inv_openStep h rest) hw hr
  | command rest _ _ _ hr => exact inv_of_commandRow (inv_openStep h rest) hr
  | cancelWr rest level => exact inv_cancelWr (inv_openStep h rest) level
  | cancelRd rest level => exact inv_cancelRd (inv_openStep h rest) level
  | reset rest p => exact inv_resetStep p (openStep rest s) h.romFits

/-! ### Constants -/

theorem engineRow_constants {s t : State} (hr : EngineRow s t) :
    t.rom = s.rom ∧ t.cfg = s.cfg ∧ t.dotMs = s.dotMs ∧ t.cfgWarn = s.cfgWarn := by
  cases hr with
  | bit0 | fin => simp
  | _ => exact ⟨rfl, rfl, rfl, rfl⟩

theorem commandRow_constants {s t : State} {code : BitVec 3} (hr : CommandRow s code t) :
    t.rom = s.rom ∧ t.cfg = s.cfg ∧ t.dotMs = s.dotMs ∧ t.cfgWarn = s.cfgWarn := by
  cases hr <;> exact ⟨rfl, rfl, rfl, rfl⟩

theorem nextIsReset_of_reset {s : State} {rest : List Event} {p : ConfigPort} {d : CommandPort}
    (he : s.events = .reset p d :: rest) : nextIsReset s = true := by
  simp [nextIsReset, he]

/-- Settles O42, by the rows of a step. -/
theorem constantsNeverChange : Obligations.ConstantsNeverChange := by
  intro s t ht
  cases step_row s t ht with
  | engine rest _ _ _ _ hr =>
    obtain ⟨hrom, hcfg, hconst⟩ := engineRow_constants hr
    exact ⟨hrom, hcfg, fun _ => hconst⟩
  | command rest _ _ _ hr =>
    obtain ⟨hrom, hcfg, hconst⟩ := commandRow_constants hr
    exact ⟨hrom, hcfg, fun _ => hconst⟩
  | tick | cancelWr | cancelRd => exact ⟨rfl, rfl, fun _ => ⟨rfl, rfl⟩⟩
  | reset rest p d he =>
    exact ⟨rfl, rfl, fun hno => absurd ((nextIsReset_of_reset he).symm.trans hno) (by decide)⟩

/-! ### The index -/

/-- Only `NEXT` moves `idx` among the engine's steps (42_sequencer R181). -/
theorem engineRow_idx {s t : State} (hr : EngineRow s t) :
    t.idx = s.idx ∨ (s.st = .next ∧ t.st = .fetch ∧ t.idx = s.idx + 1) := by
  cases hr with
  | next hst => exact .inr ⟨hst, rfl, rfl⟩
  | bit0 | fin => exact .inl (flushed_idx s.ones s)
  | _ => exact .inl rfl

/-- Only an accepted `WRITE` moves `idx` among the host commands (44_host_commands R206). -/
theorem commandRow_idx {s t : State} {code : BitVec 3} (hr : CommandRow s code t) :
    t.idx = s.idx ∨ (s.st = .idle ∧ t.st = .fetch ∧ t.idx = 0) := by
  cases hr with
  | accepted m _ hidle => exact .inr ⟨hidle, rfl, rfl⟩
  | _ => exact .inl rfl

/-- Settles O44, by the rows of a step. -/
theorem indexMovesOnlyByNext : Obligations.IndexMovesOnlyByNext := by
  intro s t ht
  cases step_row s t ht with
  | engine rest _ _ _ hw hr =>
    rcases engineRow_idx hr with hi | ⟨hst, hst', hi⟩
    · exact .inl hi
    · exact .inr (.inl ⟨hst, hw, hst', hi⟩)
  | command rest _ _ _ hr =>
    rcases commandRow_idx hr with hi | ⟨hst, hst', hi⟩
    · exact .inl hi
    · exact .inr (.inr ⟨hi, .inr ⟨hst, hst'⟩⟩)
  | tick | cancelWr | cancelRd => exact .inl rfl
  | reset rest p d he => exact .inr (.inr ⟨rfl, .inl (nextIsReset_of_reset he)⟩)

/-! ### The pulse -/

/-- Only `BIT1` turns the level ON among the engine's steps (40_pulse_generator R122). -/
theorem engineRow_pulse {s t : State} (hr : EngineRow s t) :
    (t.pulse = true → s.pulse = true) ∨
      (s.st = .bit ∧ s.pat.testBit (s.cfg.patWidth - 1) = true ∧ t.st = .shift ∧ t.wait = 1#3) := by
  cases hr with
  | bit1 hst _ hm => exact .inr ⟨hst, hm, rfl, rfl⟩
  | bit0 | fin | fault => exact .inl nofun
  | _ => exact .inl id

theorem commandRow_pulse {s t : State} {code : BitVec 3} (hr : CommandRow s code t) : t.pulse = s.pulse := by
  cases hr <;> rfl

/-- Settles O45, by the rows of a step. -/
theorem pulseRisesOnlyInBitOne : Obligations.PulseRisesOnlyInBitOne := by
  intro s t ht hoff hon
  have hrise : ¬ (t.pulse = true → s.pulse = true) := fun hback => absurd (hoff.symm.trans (hback hon)) (by decide)
  cases step_row s t ht with
  | engine rest _ _ _ hw hr =>
    rcases engineRow_pulse hr with hback | ⟨hst, hm, hst', hw'⟩
    · exact absurd hback hrise
    · exact ⟨hst, hw, hm, hst', hw'⟩
  | command rest _ _ _ hr => exact absurd (fun h => (commandRow_pulse hr).symm.trans h) hrise
  | tick | cancelWr | cancelRd => exact absurd id hrise
  | reset => exact absurd hon nofun

/-! ### The overflow flag -/

/-- An enqueue sets `ovf` only when the queue is full (43_queue_and_reader R190). -/
theorem enqueued_ovf_cases (c : Byte) (s : State) :
    (enqueued c s).ovf = s.ovf ∨ ((enqueued c s).ovf = true ∧ s.cfg.queueCap ≤ s.q.length) := by
  rw [enqueued_ovf]
  split
  · exact .inl rfl
  · exact .inr ⟨rfl, by omega⟩

theorem flushed_ovf_cases (n : RunLength) (s : State) :
    (flushed n s).ovf = s.ovf ∨ ((flushed n s).ovf = true ∧ s.cfg.queueCap ≤ s.q.length) := by
  rcases flushed_cases n s with ⟨-, he⟩ | ⟨-, he⟩ | ⟨-, -, he⟩ <;> rw [he]
  · exact enqueued_ovf_cases symDot s
  · exact enqueued_ovf_cases symDash s
  · exact .inl rfl

/-- The drain's newline sets `ovf` only when the queue is full (43_queue_and_reader R194 (f)). -/
theorem closedOvf_cases (s : State) :
    closedOvf s = s.ovf ∨ (closedOvf s = true ∧ s.cfg.queueCap ≤ s.q.length) := by
  unfold closedOvf
  split
  · rename_i hfull
    obtain ⟨-, -, hcap⟩ := hfull
    exact .inr ⟨rfl, hcap⟩
  · exact .inl rfl

theorem engineRow_ovf {s t : State} (hr : EngineRow s t) :
    t.ovf = s.ovf ∨ (t.ovf = true ∧ s.cfg.queueCap ≤ s.q.length) := by
  cases hr with
  | wordLetter | opening | sep2 => exact enqueued_ovf_cases symSpace s
  | bit0 | fin => exact flushed_ovf_cases s.ones s
  | _ => exact .inl rfl

theorem commandRow_ovf {s t : State} {code : BitVec 3} (hr : CommandRow s code t) :
    t.ovf = s.ovf ∨ (t.ovf = true ∧ s.cfg.queueCap ≤ s.q.length) ∨ (t.ovf = false ∧ code = 3#3) := by
  cases hr with
  | read => exact (closedOvf_cases s).imp_right .inl
  | clrOvf hcode => exact .inr (.inr ⟨rfl, hcode⟩)
  | _ => exact .inl rfl

/-- Settles O46, by the rows of a step. -/
theorem overflowFlagIsSticky : Obligations.OverflowFlagIsSticky := by
  intro s t hno ht
  cases step_row s t ht with
  | engine rest _ _ _ _ hr => exact (engineRow_ovf hr).imp_right .inl
  | command rest p _ he hr =>
    rcases commandRow_ovf hr with hsame | hfull | ⟨hclr, hcode⟩
    · exact .inl hsame
    · exact .inr (.inl hfull)
    · exact .inr (.inr ⟨hclr, p, rest, he, hcode⟩)
  | tick | cancelWr | cancelRd => exact .inl rfl
  | reset rest p d he => exact absurd ((nextIsReset_of_reset he).symm.trans hno) (by decide)

/-! ### The quantum length -/

/-- The state with another `DOT_MS` and `cfg_warn` (10_state R33, R34). -/
def withQuantum (d : BitVec 11) (w : Bool) (s : State) : State := { s with dotMs := d, cfgWarn := w }

/-- The outcome with its next state, if any, changed by `f`. -/
def mapNext (f : State → State) : Result → Result
  | .next t => .next (f t)
  | .fault e => .fault e
  | .refused e => .refused e

section
variable (d : BitVec 11) (w : Bool)

@[simp] theorem withQuantum_first (s : State) : (withQuantum d w s).first = s.first := rfl
@[simp] theorem withQuantum_bdone (s : State) : (withQuantum d w s).bdone = s.bdone := rfl
@[simp] theorem withQuantum_ones (s : State) : (withQuantum d w s).ones = s.ones := rfl
@[simp] theorem withQuantum_q (s : State) : (withQuantum d w s).q = s.q := rfl
@[simp] theorem withQuantum_cancelWr (s : State) : (withQuantum d w s).cancelWr = s.cancelWr := rfl
@[simp] theorem withQuantum_cancelRd (s : State) : (withQuantum d w s).cancelRd = s.cancelRd := rfl
@[simp] theorem withQuantum_cfg (s : State) : (withQuantum d w s).cfg = s.cfg := rfl
@[simp] theorem busy_withQuantum (s : State) : busy (withQuantum d w s) = busy s := rfl
@[simp] theorem letterFollows_withQuantum (i : Nat) (s : State) :
    letterFollows (withQuantum d w s) i = letterFollows s i := rfl
@[simp] theorem engineEnabled_withQuantum (s : State) : engineEnabled (withQuantum d w s) = engineEnabled s := rfl
@[simp] theorem fetch_withQuantum (s : State) : fetch (withQuantum d w s) = fetch s := rfl

theorem push_withQuantum (c : Byte) (s : State) : push c (withQuantum d w s) = withQuantum d w (push c s) := by
  rcases push_cases c s with ⟨hroom, he⟩ | ⟨hfull, he⟩ <;> rw [he]
  · exact if_pos hroom
  · exact if_neg (Nat.not_lt.2 hfull)

theorem enqueue_withQuantum (c : Byte) (s : State) :
    enqueue c (withQuantum d w s) = (enqueue c s).map (withQuantum d w) := by
  simp only [enqueue_eq, withQuantum_cancelWr, push_withQuantum]
  by_cases hc : s.cancelWr = true
  · simp only [if_pos hc]; rfl
  · simp only [if_neg hc]; rfl

theorem flush_withQuantum (n : RunLength) (s : State) :
    flush n (withQuantum d w s) = (flush n s).map (withQuantum d w) := by
  unfold flush
  cases runSymbol n with
  | some c => exact enqueue_withQuantum d w c s
  | none => rfl

theorem closeBatch_withQuantum (s : State) : closeBatch (withQuantum d w s) = withQuantum d w (closeBatch s) := by
  simp only [closeBatch, withQuantum_q, push_withQuantum]
  exact (apply_ite (withQuantum d w) _ _ _).symm

theorem takeInterrupted_withQuantum (x : Interrupted) (s : State) :
    takeInterrupted x (withQuantum d w s) = withQuantum d w (takeInterrupted x s) := by
  obtain ⟨_ | _⟩ := x <;> rfl

/-- A step that may raise does the same beside another quantum length, when its rest does. -/
theorem orInterrupted_withQuantum (s : State) (r : Except Interrupted State) (rest : State → State)
    (hrest : ∀ s1, rest (withQuantum d w s1) = withQuantum d w (rest s1)) :
    orInterrupted (withQuantum d w s) (r.map (withQuantum d w)) rest = mapNext (withQuantum d w) (orInterrupted s r rest) := by
  cases r with
  | ok s1 => exact congrArg _ (hrest s1)
  | error x => exact congrArg _ (takeInterrupted_withQuantum d w x s)

theorem letterStep_withQuantum (kk : Fin 26) (s : State) :
    letterStep kk (withQuantum d w s) = mapNext (withQuantum d w) (letterStep kk s) := by
  simp only [letterStep, withQuantum_first, withQuantum_bdone, enqueue_withQuantum]
  by_cases hf : s.first = true
  · simp only [if_pos hf]; rfl
  by_cases hb : s.bdone = true
  · simp only [if_neg hf, if_pos hb]; rfl
  · simp only [if_neg hf, if_neg hb]
    exact orInterrupted_withQuantum d w s _ _ fun _ => rfl

theorem execSep_withQuantum (s : State) : execSep (withQuantum d w s) = mapNext (withQuantum d w) (execSep s) := by
  have hidx : (withQuantum d w s).idx = s.idx := rfl
  simp only [execSep, withQuantum_first, withQuantum_bdone, letterFollows_withQuantum, hidx, enqueue_withQuantum]
  by_cases hf : s.first = true
  · simp only [if_pos hf]; rfl
  by_cases hb : s.bdone = true
  · simp only [if_neg hf, if_pos hb]; rfl
  by_cases hl : letterFollows s s.idx = true
  · simp only [if_neg hf, if_neg hb, if_pos hl]
    exact orInterrupted_withQuantum d w s _ _ fun _ => rfl
  · simp only [if_neg hf, if_neg hb, if_neg hl]; rfl

theorem execWrite_withQuantum (m : List Byte) (s : State) :
    execWrite m (withQuantum d w s) = mapNext (withQuantum d w) (execWrite m s) := by
  rw [execWrite, busy_withQuantum, execWrite]
  by_cases hb : busy s = true
  · simp only [if_pos hb]; rfl
  · simp only [if_neg hb]; rfl

theorem execRead_withQuantum (n : Nat) (s : State) :
    execRead n (withQuantum d w s) = mapNext (withQuantum d w) (execRead n s) := by
  simp only [execRead, drain_eq, withQuantum_cancelRd, closeBatch_withQuantum]
  by_cases hc : s.cancelRd = true
  · rw [if_pos hc, if_pos hc]
    exact congrArg _ (takeInterrupted_withQuantum d w _ s)
  · rw [if_neg hc, if_neg hc]
    rfl

/-- No instruction's meaning reads `DOT_MS` or `cfg_warn` (40_pulse_generator R131). -/
theorem exec_withQuantum (i : Instr) (s : State) :
    exec i (withQuantum d w s) = mapNext (withQuantum d w) (exec i s) := by
  cases i with
  | sep => exact execSep_withQuantum d w s
  | write m => exact execWrite_withQuantum d w m s
  | read n => exact execRead_withQuantum d w n s
  | sep2 | flushDot | flushDash =>
    simp only [exec, execSep2, execFlushDot, execFlushDash, enqueue_withQuantum]
    exact orInterrupted_withQuantum d w s _ _ fun _ => rfl
  | bit0 | fin =>
    simp only [exec, execBit0, execFin, withQuantum_ones, flush_withQuantum]
    exact orInterrupted_withQuantum d w s _ _ fun _ => rfl
  | ign | endMsg | next | load | finSel | bit1 | shift | flushNone | nop | clrOvf | rsv4to7 => rfl
  | _ => exact letterStep_withQuantum d w _ s

theorem runSelector_withQuantum (x : Selector) (s : State) :
    runSelector x (withQuantum d w s) = mapNext (withQuantum d w) (runSelector x s) := by
  simp only [runSelector, withQuantum_cfg]
  cases decode s.cfg x with
  | ok i => exact exec_withQuantum d w i s
  | error e => rfl

theorem blockTurn_withQuantum (s : State) :
    blockTurn (withQuantum d w s) = mapNext (withQuantum d w) (blockTurn s) := by
  rw [blockTurn, engineEnabled_withQuantum, fetch_withQuantum, blockTurn]
  by_cases he : engineEnabled s = true
  · rw [if_pos he, if_pos he]
    cases fetch s with
    | ok x => exact runSelector_withQuantum d w x s
    | error f => rfl
  · rw [if_neg he, if_neg he]
    rfl

/-- Every step but a reset does the same beside another quantum length (10_state R33). -/
theorem step_withQuantum (s : State) (hno : nextIsReset s = false) :
    step (withQuantum d w s) = mapNext (withQuantum d w) (step s) := by
  cases he : s.events with
  | nil =>
    rw [step_of_no_events s he, step_of_no_events (withQuantum d w s) he]
    exact blockTurn_withQuantum d w (openStep [] s)
  | cons e rest =>
    rw [step_of_event s e rest he, step_of_event (withQuantum d w s) e rest he]
    cases e with
    | block => exact blockTurn_withQuantum d w (openStep rest s)
    | command p => exact runSelector_withQuantum d w (.cmd p) (openStep rest s)
    | cancelWr | cancelRd => rfl
    | reset => simp [nextIsReset, he] at hno

end

/-- Settles O49: the two steps have the same outcome, up to the two fields. -/
theorem quantumLengthInfluencesNothing : Obligations.QuantumLengthInfluencesNothing := by
  intro s d w hno
  have hstep := step_withQuantum d w s hno
  exact ⟨fun t ht => by rw [ht] at hstep; exact hstep, fun f hf => by rw [hf] at hstep; exact hstep,
    fun r hr => by rw [hr] at hstep; exact hstep⟩

/-! ### The hidden ring -/

theorem ring_wf_iff (r : Ring) : r.wf = true ↔ r.head < r.mem.length ∧ r.count ≤ r.mem.length := by
  simp [Ring.wf]

@[simp] theorem ring_toQueue_length (r : Ring) : r.toQueue.length = r.count := by simp [Ring.toQueue]

@[simp] theorem ring_toQueue_getElem (r : Ring) (i : Nat) (h : i < r.toQueue.length) : r.toQueue[i] = r.element i := by
  simp [Ring.toQueue]

/-- Two offsets below the capacity reach different places of the ring. -/
theorem ring_place_inj {head i j cap : Nat} (hi : i < cap) (hj : j < cap) (h : (head + i) % cap = (head + j) % cap) :
    i = j := by
  have hij : i ≡ j [MOD cap] := Nat.ModEq.add_left_cancel' head h
  exact Nat.ModEq.eq_of_lt_of_lt hij hi hj

/-- Below capacity a push writes the place behind the last symbol and leaves the symbols' places alone (10_state R39). -/
theorem ring_push_element (r : Ring) (c : Byte) (i : Nat) (h : r.count < r.mem.length) (hi : i ≤ r.count) :
    (r.push c).element i = if i = r.count then c else r.element i := by
  have hplace : (r.head + i) % r.mem.length < r.mem.length := Nat.mod_lt _ (by omega)
  by_cases hlast : i = r.count
  · subst hlast
    simp [Ring.element, Ring.push, h, hplace]
  · have hne : (r.head + r.count) % r.mem.length ≠ (r.head + i) % r.mem.length :=
      fun he => hlast (ring_place_inj h (by omega) he).symm
    simp [Ring.element, Ring.push, h, hlast, hne]

/-- A push appends below capacity and does nothing at capacity (43_queue_and_reader R190). -/
theorem ring_push_toQueue (r : Ring) (c : Byte) :
    (r.push c).toQueue = if r.toQueue.length < r.mem.length then r.toQueue ++ [c] else r.toQueue := by
  rw [ring_toQueue_length]
  by_cases h : r.count < r.mem.length
  · rw [if_pos h]
    have hcount : (r.push c).count = r.count + 1 := by simp [Ring.push, h]
    refine List.ext_getElem (by simp [hcount]) fun i hi _ => ?_
    rw [ring_toQueue_length, hcount] at hi
    rw [ring_toQueue_getElem, ring_push_element r c i h (by omega), List.getElem_append]
    by_cases hlast : i = r.count
    · simp [hlast]
    · simp [hlast, show i < r.count by omega]
  · simp [Ring.push, h]

theorem ring_push_wf (r : Ring) (c : Byte) (h : r.wf = true) : (r.push c).wf = true := by
  obtain ⟨hhead, hcount⟩ := (ring_wf_iff r).1 h
  rw [ring_wf_iff]
  unfold Ring.push
  split
  · simpa using ⟨hhead, ‹_›⟩
  · exact ⟨hhead, hcount⟩

/-- Removing advances the head past the first symbols (43_queue_and_reader R195). -/
theorem ring_remove_toQueue (r : Ring) (n : Nat) : (r.remove n).toQueue = r.toQueue.drop n := by
  refine List.ext_getElem (by simp [Ring.remove]) fun i _ _ => ?_
  simp [Ring.element, Ring.remove, Nat.add_assoc]

theorem ring_remove_wf (r : Ring) (n : Nat) (h : r.wf = true) : (r.remove n).wf = true := by
  obtain ⟨hhead, hcount⟩ := (ring_wf_iff r).1 h
  exact (ring_wf_iff _).2 ⟨Nat.mod_lt _ (by omega), (Nat.sub_le _ _).trans hcount⟩

/-- Settles O59. -/
theorem ringStandsForTheQueue : Obligations.RingStandsForTheQueue :=
  fun r c n h => ⟨ring_push_wf r c h, ring_push_toQueue r c, fun _ => ⟨ring_remove_wf r n h, ring_remove_toQueue r n⟩⟩

/-! ### The reset state -/

/-- A reset with no configuration supplied leaves the reset state of the standard machine (10_state R45). -/
theorem resetStep_eq_reset (d : BitVec 32) (s : State) (he : s.events = []) (ho : s.out = .none) (hw : s.cancelWr = false)
    (hr : s.cancelRd = false) (hc : s.cfg = Config.standard) (hrom : s.rom = romTable Config.standard.patWidth) :
    resetStep { present := false, dotMs := d } s = State.reset := by
  simp only [resetStep, he, ho, hw, hr, hc, hrom]
  rfl

/-- Settles O41. -/
theorem resetStateIsTheResetStepsResult : Obligations.ResetStateIsTheResetStepsResult := by
  intro s d c he hw hr hc hrom
  rw [step_of_event s _ [] he, eventTurn, resetStep_eq_reset d (openStep [] s) rfl rfl hw hr hc hrom]

/-- Settles O50: the reset state is what a reset step leaves, and the standard table's words are 16 bits wide. -/
theorem resetStateSatisfiesTheInvariant : Obligations.ResetStateSatisfiesTheInvariant := by
  have hreset : resetStep { present := false, dotMs := 0#32 } State.reset = State.reset :=
    resetStep_eq_reset 0#32 State.reset rfl rfl rfl rfl rfl rfl
  have hrom : ∀ k : Fin 26, State.reset.rom[k] < 2 ^ State.reset.cfg.patWidth := by decide
  unfold Obligations.ResetStateSatisfiesTheInvariant
  rw [← hreset]
  exact inv_resetStep _ State.reset hrom

end Sys2Proof.Machine
end

section
/-! PROOFS. The statements on the memories (20_memory): the lock's acquisition of R70, the message of R66 and the order of the
stream of R67 and R68. -/

namespace Sys2Proof.Machine

/-! ### The lock -/

/-- Settles O27: `acquire_eq` for either agent. -/
theorem acquireSamplesTheCancelLevel : Obligations.AcquireSamplesTheCancelLevel :=
  fun s => ⟨acquire_eq .engine s, acquire_eq .reader s⟩

/-! ### The message -/

/-- No step of the engine writes `MSG` or `len` (20_memory R66). -/
theorem engineRow_msg {s t : State} (hr : EngineRow s t) : t.msg = s.msg ∧ t.len = s.len := by
  cases hr with
  | bit0 | fin => exact ⟨flushed_msg s.ones s, flushed_len s.ones s⟩
  | _ => exact ⟨rfl, rfl⟩

/-- Only an accepted `WRITE` replaces the message, and it is accepted only when IDLE (44_host_commands R206, R207). -/
theorem commandRow_msg_of_running {s t : State} {code : BitVec 3} (hr : CommandRow s code t) (hrun : s.st ≠ .idle) :
    t.msg = s.msg ∧ t.len = s.len := by
  cases hr with
  | accepted m _ hidle => exact absurd hidle hrun
  | _ => exact ⟨rfl, rfl⟩

/-- Settles O43, by the rows of a step. -/
theorem messageIsFrozenWhileRunning : Obligations.MessageIsFrozenWhileRunning := by
  intro s t hno hrun ht
  cases step_row s t ht with
  | engine rest _ _ _ _ hr =>
    obtain ⟨hmsg, hlen⟩ := engineRow_msg hr
    exact ⟨hmsg, hlen⟩
  | command rest _ _ _ hr =>
    obtain ⟨hmsg, hlen⟩ := commandRow_msg_of_running hr hrun
    exact ⟨hmsg, hlen⟩
  | tick | cancelWr | cancelRd => exact ⟨rfl, rfl⟩
  | reset rest p d he => exact absurd ((nextIsReset_of_reset he).symm.trans hno) (by decide)

/-! ### The order of the stream -/

/-- The stream `q'` is the stream `q` with at most one symbol byte after it, a newline only under `newlineAllowed`. -/
def ExtendsByOne (newlineAllowed : Prop) (q q' : List Byte) : Prop :=
  ∃ added : List Byte, added.length ≤ 1 ∧ q' = q ++ added ∧ (∀ c ∈ added, isSymbol c = true) ∧
    (symNewline ∈ added → newlineAllowed)

theorem extendsByOne_refl (P : Prop) (q : List Byte) : ExtendsByOne P q q :=
  ⟨[], by simp⟩

theorem extendsByOne_append {P : Prop} {c : Byte} (q : List Byte) (hsym : isSymbol c = true) (hnl : c = symNewline → P) :
    ExtendsByOne P q (q ++ [c]) :=
  ⟨[c], Nat.le_refl 1, rfl, List.forall_mem_singleton.2 hsym, fun hmem => hnl (List.mem_singleton.1 hmem).symm⟩

theorem extendsByOne_mono {P P' : Prop} {q q' : List Byte} (h : ExtendsByOne P q q') (hP : P → P') :
    ExtendsByOne P' q q' := by
  obtain ⟨added, hlen, heq, hsym, hnl⟩ := h
  exact ⟨added, hlen, heq, hsym, fun hmem => hP (hnl hmem)⟩

/-- An enqueue appends its symbol or, at capacity, drops it (43_queue_and_reader R190). -/
theorem enqueued_extends {c : Byte} (s : State) (hsym : isSymbol c = true) (hnl : c ≠ symNewline) :
    ExtendsByOne False s.q (enqueued c s).q := by
  rw [enqueued_q]
  split
  · exact extendsByOne_append s.q hsym hnl
  · exact extendsByOne_refl False s.q

/-- A flush enqueues a dot, a dash or nothing (30_encoding R100). -/
theorem flushed_extends (n : RunLength) (s : State) : ExtendsByOne False s.q (flushed n s).q := by
  rcases flushed_cases n s with ⟨-, he⟩ | ⟨-, he⟩ | ⟨-, -, he⟩ <;> rw [he]
  · exact enqueued_extends s rfl (by decide)
  · exact enqueued_extends s rfl (by decide)
  · exact extendsByOne_refl False s.q

/-- A drain closes its batch with at most one newline (43_queue_and_reader R193). -/
theorem closedQueue_extends (s : State) : ExtendsByOne True s.q (closedQueue s) := by
  unfold closedQueue
  split
  · exact extendsByOne_refl True s.q
  · exact extendsByOne_append s.q rfl fun _ => trivial

/-- The engine hands nothing out and never appends a newline (20_memory R67). -/
theorem engineRow_stream {s t : State} (hr : EngineRow s t) : t.out = s.out ∧ ExtendsByOne False s.q t.q := by
  cases hr with
  | wordLetter | opening | sep2 => exact ⟨rfl, enqueued_extends s rfl (by decide)⟩
  | bit0 | fin => exact ⟨flushed_out s.ones s, flushed_extends s.ones s⟩
  | _ => exact ⟨rfl, extendsByOne_refl False s.q⟩

/-- A `READ` hands out the head of its closed batch and keeps the rest; no other command touches the queue (20_memory R67). -/
theorem commandRow_stream {s t : State} {code : BitVec 3} (hr : CommandRow s code t) :
    ExtendsByOne (code = 2#3) s.q (t.out.bytes ++ t.q) := by
  cases hr with
  | read n hcode =>
    have hsplit : (closedQueue s).take n ++ (closedQueue s).drop n = closedQueue s := List.take_append_drop n _
    change ExtendsByOne _ s.q ((closedQueue s).take n ++ (closedQueue s).drop n)
    rw [hsplit]
    exact extendsByOne_mono (closedQueue_extends s) fun _ => hcode
  | _ => exact extendsByOne_refl _ s.q

/-- Settles O47, by the rows of a step: `ExtendsByOne` is the statement's conclusion. -/
theorem queueKeepsFifoOrder : Obligations.QueueKeepsFifoOrder := by
  intro s t hno ht
  cases step_row s t ht with
  | engine rest _ _ _ _ hr =>
    obtain ⟨hout, hext⟩ := engineRow_stream hr
    rw [hout]
    exact extendsByOne_mono hext False.elim
  | command rest p _ he hr =>
    have hext := commandRow_stream hr
    exact extendsByOne_mono hext fun hcode => ⟨p, rest, he, hcode⟩
  | tick | cancelWr | cancelRd => exact extendsByOne_refl _ s.q
  | reset rest p d he => exact absurd ((nextIsReset_of_reset he).symm.trans hno) (by decide)

end Sys2Proof.Machine
end

section
/-! PROOFS. The statements on the encodings (30_encoding): the classes of message bytes, the decoder and the encoder, what the
engine fetches, and the table's words. -/

namespace Sys2Proof.Machine

/-! ### Message bytes (30_encoding R91 to R93) -/

/-- The mask of R92, which drops the case bit, finds the byte ranges of R91. -/
theorem isLetterByte_iff_masked : ∀ b : Byte,
    isLetterByte b = true ↔ 0x41#8 ≤ (b &&& 0xDF#8) ∧ (b &&& 0xDF#8) ≤ 0x5A#8 := by decide

theorem letterIndex_val : ∀ b : Byte, isLetterByte b = true → (letterIndex b).val + 1 = (b &&& 0x1F#8).toNat := by decide

/-- A letter byte is its letter number and its case bit (R91). -/
theorem letterByte_letterIndex : ∀ b : Byte, isLetterByte b = true →
    letterByte ((letterIndex b).val + 1) (b.getLsbD 5) = b := by decide

theorem isLetterByte_letterByte : ∀ (k : Fin 26) (lower : Bool), isLetterByte (letterByte (k.val + 1) lower) = true := by
  decide

@[simp] theorem letterIndex_letterByte : ∀ (k : Fin 26) (lower : Bool), letterIndex (letterByte (k.val + 1) lower) = k := by
  decide

@[simp] theorem caseBit_letterByte : ∀ (k : Fin 26) (lower : Bool),
    (letterByte (k.val + 1) lower).getLsbD 5 = lower := by decide

section
variable {c : Config} {b : Byte}

theorem classify_letter (h : isLetterByte b = true) : classify c b = .letter (letterIndex b) :=
  if_pos ((isLetterByte_iff_masked b).1 h)

/-- A byte that is no letter is a separator or ignored, by the separator set alone (R92). -/
theorem classify_of_not_letter (h : isLetterByte b = false) :
    classify c b = if b ∈ c.separators then .sep else .ign := by
  have hmask := mt (isLetterByte_iff_masked b).2 (Bool.eq_false_iff.1 h)
  simp only [classify, if_neg hmask, List.contains_iff_mem]

theorem classify_sep (h : isLetterByte b = false) (hs : b ∈ c.separators) : classify c b = .sep := by
  rw [classify_of_not_letter h, if_pos hs]

theorem classify_ign (h : isLetterByte b = false) (hs : b ∉ c.separators) : classify c b = .ign := by
  rw [classify_of_not_letter h, if_neg hs]

theorem classify_eq_sep_iff : classify c b = .sep ↔ isLetterByte b = false ∧ b ∈ c.separators := by
  cases h : isLetterByte b with
  | true => simp [classify_letter h]
  | false => simp [classify_of_not_letter h]

theorem classify_eq_ign_iff : classify c b = .ign ↔ isLetterByte b = false ∧ b ∉ c.separators := by
  cases h : isLetterByte b with
  | true => simp [classify_letter h]
  | false => simp [classify_of_not_letter h]

theorem classify_letterByte (c : Config) (k : Fin 26) (lower : Bool) :
    classify c (letterByte (k.val + 1) lower) = .letter k := by
  rw [classify_letter (isLetterByte_letterByte k lower), letterIndex_letterByte]

/-- The letter ranges of R91, for the byte that a number below 256 writes. -/
theorem isLetterByte_ofNat {n : Nat} (hn : n < 256) :
    isLetterByte (BitVec.ofNat 8 n) = false ↔ ¬((0x41 ≤ n ∧ n ≤ 0x5A) ∨ (0x61 ≤ n ∧ n ≤ 0x7A)) := by
  have hval : n % 256 = n := Nat.mod_eq_of_lt hn
  rw [← Bool.not_eq_true]
  simp [isLetterByte, hval]

/-- The default separator set is the space (00_scope R6). -/
theorem ofNat_mem_standard_separators {n : Nat} (hn : n < 256) :
    BitVec.ofNat 8 n ∈ Config.standard.separators ↔ n = 0x20 := by
  rw [Config.standard, List.mem_singleton, ← BitVec.toNat_inj, BitVec.toNat_ofNat, Nat.mod_eq_of_lt hn]
  rfl

/-- The separator of the default set (R92). -/
theorem classify_standard_sep {n : Nat} (hn : n < 256) :
    classify Config.standard (BitVec.ofNat 8 n) = .sep ↔ n = 0x20 := by
  rw [classify_eq_sep_iff, isLetterByte_ofNat hn, ofNat_mem_standard_separators hn]
  omega

/-- The ignored values under the default set (R92). -/
theorem classify_standard_ign {n : Nat} (hn : n < 256) :
    classify Config.standard (BitVec.ofNat 8 n) = .ign ↔
      n ≤ 0x1F ∨ (0x21 ≤ n ∧ n ≤ 0x40) ∨ (0x5B ≤ n ∧ n ≤ 0x60) ∨ 0x7B ≤ n := by
  rw [classify_eq_ign_iff, isLetterByte_ofNat hn, ofNat_mem_standard_separators hn]
  omega

/-- Settles O4: the class of any byte from its range and the separator set; the counts are those of the ranges. -/
theorem classOfEveryByte : Obligations.ClassOfEveryByte := by
  refine ⟨fun c b => ⟨fun h => ⟨letterIndex b, classify_letter h, letterIndex_val b h⟩, classify_sep, classify_ign⟩,
    by decide, fun n => classify_standard_sep, fun n => classify_standard_ign, ?_⟩
  have hranges : ∀ n ∈ List.range 256, (classify Config.standard (BitVec.ofNat 8 n) == .ign) =
      decide (n ≤ 0x1F ∨ (0x21 ≤ n ∧ n ≤ 0x40) ∨ (0x5B ≤ n ∧ n ≤ 0x60) ∨ 0x7B ≤ n) := fun n hn => by
    rw [beq_eq_decide]
    exact decide_eq_decide.2 (classify_standard_ign (List.mem_range.1 hn))
  rw [List.filter_congr hranges]
  rfl

/-- Settles O5: both bytes have the letter's index, which is all its meaning looks at. -/
theorem caseIsIgnored : Obligations.CaseIsIgnored := fun c k s =>
  ⟨classify_letterByte c k false, classify_letterByte c k true,
    (exec_letterInstr k true s).trans (exec_letterInstr k false s).symm⟩

/-! ### Message bytes as instructions (30_encoding R104) -/

theorem decodeChar_letter (h : isLetterByte b = true) :
    decodeChar c b = letterInstr (letterIndex b) (b.getLsbD 5) := by
  simp only [decodeChar, classify_letter h]

theorem decodeChar_sep (h : isLetterByte b = false) (hs : b ∈ c.separators) : decodeChar c b = .sep b := by
  simp only [decodeChar, classify_sep h hs]

theorem decodeChar_ign (h : isLetterByte b = false) (hs : b ∉ c.separators) : decodeChar c b = .ign b := by
  simp only [decodeChar, classify_ign h hs]

@[simp] theorem encode_letterInstr (c : Config) (k : Fin 26) (lower : Bool) :
    encode c (letterInstr k lower) = .char (letterByte (k.val + 1) lower) := by
  fin_cases k <;> rfl

@[simp] theorem wellFormed_letterInstr (c : Config) (k : Fin 26) (lower : Bool) :
    (letterInstr k lower).wellFormed c = true := by
  fin_cases k <;> rfl

/-- The byte numbered `k + 1` decodes to the letter of index `k`, the case bit kept as its operand (R91). -/
theorem decode_letterByte (c : Config) (k : Fin 26) (lower : Bool) :
    decode c (.char (letterByte (k.val + 1) lower)) = .ok (letterInstr k lower) := by
  rw [decode, decodeChar_letter (isLetterByte_letterByte k lower), letterIndex_letterByte, caseBit_letterByte]

/-- An instruction encoded as a letter byte, and being that byte's letter, is decoded back. -/
theorem decode_encode_of_letterByte {i : Instr} (hb : isLetterByte b = true) (he : encode c i = .char b)
    (hi : letterInstr (letterIndex b) (b.getLsbD 5) = i) : decode c (encode c i) = .ok i := by
  rw [he, decode, decodeChar_letter hb, hi]

/-- What a byte decodes to is well-formed, and the byte is its encoding. -/
theorem decodeChar_spec (c : Config) (b : Byte) :
    (decodeChar c b).wellFormed c = true ∧ encode c (decodeChar c b) = .char b := by
  cases h : isLetterByte b with
  | true =>
    rw [decodeChar_letter h, encode_letterInstr, letterByte_letterIndex b h]
    exact ⟨wellFormed_letterInstr _ _ _, rfl⟩
  | false =>
    by_cases hs : b ∈ c.separators
    · rw [decodeChar_sep h hs]
      exact ⟨by simp [Instr.wellFormed, h, hs], rfl⟩
    · rw [decodeChar_ign h hs]
      exact ⟨by simp [Instr.wellFormed, h, hs], rfl⟩

/-! ### Patterns (30_encoding R104) -/

/-- A number with the bit `n` and below the next power is that bit and the bits below it. -/
theorem testBit_two_pow_add {n rest : Nat} (h : rest < 2 ^ n) : (2 ^ n + rest).testBit n = true := by
  rw [Nat.testBit_two_pow_add_eq, Nat.testBit_lt_two_pow h]
  rfl

/-- The bits below the top one of a `W`-bit word. -/
theorem rest_lt_of_fits {w rest : Nat} (h : 2 ^ (w - 1) + rest < 2 ^ w) : rest < 2 ^ (w - 1) := by
  cases w with
  | zero => simp at h
  | succ w =>
    rw [Nat.add_sub_cancel] at *
    omega

theorem decodePat_zero (c : Config) : decodePat c 0 = .finSel := rfl

theorem decodePat_bit1 (c : Config) {rest : Nat} (h : rest < 2 ^ (c.patWidth - 1)) :
    decodePat c (2 ^ (c.patWidth - 1) + rest) = .bit1 rest := by
  have hne : 2 ^ (c.patWidth - 1) + rest ≠ 0 := by
    have := Nat.two_pow_pos (c.patWidth - 1)
    omega
  rw [decodePat, if_neg hne, if_pos (testBit_two_pow_add h), Nat.add_mod_left, Nat.mod_eq_of_lt h]

theorem decodePat_bit0 (c : Config) {rest : Nat} (hne : rest ≠ 0) (h : rest < 2 ^ (c.patWidth - 1)) :
    decodePat c rest = .bit0 rest := by
  rw [decodePat, if_neg hne, Nat.testBit_lt_two_pow h, if_neg Bool.false_ne_true, Nat.mod_eq_of_lt h]

/-- The rows of R104 for a `W`-bit pattern: zero, the top bit and a rest, or a non-zero rest alone. -/
theorem pattern_cases (c : Config) (w : Pattern) :
    w = 0 ∨ (∃ rest, w = 2 ^ (c.patWidth - 1) + rest) ∨ (w ≠ 0 ∧ w < 2 ^ (c.patWidth - 1)) := by
  by_cases hlt : w < 2 ^ (c.patWidth - 1)
  · by_cases h0 : w = 0
    · exact .inl h0
    · exact .inr (.inr ⟨h0, hlt⟩)
  · exact .inr (.inl ⟨w - 2 ^ (c.patWidth - 1), (Nat.add_sub_of_le (Nat.le_of_not_lt hlt)).symm⟩)

/-- What a `W`-bit pattern decodes to is well-formed, and the pattern is its encoding. -/
theorem decodePat_spec (c : Config) {w : Pattern} (hw : w < 2 ^ c.patWidth) :
    (decodePat c w).wellFormed c = true ∧ encode c (decodePat c w) = .pat w := by
  rcases pattern_cases c w with rfl | ⟨rest, rfl⟩ | ⟨hne, hlt⟩
  · exact ⟨rfl, rfl⟩
  · rw [decodePat_bit1 c (rest_lt_of_fits hw)]
    exact ⟨decide_eq_true hw, rfl⟩
  · rw [decodePat_bit0 c hne hlt]
    exact ⟨by simp [Instr.wellFormed, hne, hlt], rfl⟩

theorem decode_pat (c : Config) {w : Pattern} (hw : w < 2 ^ c.patWidth) :
    decode c (.pat w) = .ok (decodePat c w) := if_pos hw

/-! ### Run lengths (30_encoding R100) -/

theorem decodeRun_flushNone {n : RunLength} (h1 : n ≠ 1) (h3 : n ≠ 3) : decodeRun n = .flushNone n := by
  rw [decodeRun, if_neg h1, if_neg h3]

/-- What a run length decodes to is well-formed, and the length is its encoding. -/
theorem decodeRun_spec (c : Config) (n : RunLength) :
    (decodeRun n).wellFormed c = true ∧ encode c (decodeRun n) = .run n := by
  by_cases h1 : n = 1
  · subst h1
    exact ⟨rfl, rfl⟩
  by_cases h3 : n = 3
  · subst h3
    exact ⟨rfl, rfl⟩
  rw [decodeRun_flushNone h1 h3]
  exact ⟨by simp [Instr.wellFormed, h1, h3], rfl⟩

end

/-! ### Host commands (30_encoding R101) -/

section

/-- The five rows of R101: four codes, and the reserved ones with a leading 1. -/
theorem commandCode_cases : ∀ code : BitVec 3,
    code = 0#3 ∨ code = 1#3 ∨ code = 2#3 ∨ code = 3#3 ∨ ∃ low : BitVec 2, code = 1#1 ++ low := by decide

variable (c : Config) (m : List Byte) (n : Nat)

theorem decode_nop : decode c (.cmd ⟨0#3, m, n⟩) = .ok .nop := rfl

theorem decode_write (h : c.fits m.length = true) : decode c (.cmd ⟨1#3, m, n⟩) = .ok (.write m) := if_pos h

theorem decode_write_too_long (h : c.fits m.length = false) :
    decode c (.cmd ⟨1#3, m, n⟩) = .error .messageTooLong := if_neg (Bool.eq_false_iff.1 h)

theorem decode_read (h : n < 2 ^ c.rdMaxBits) : decode c (.cmd ⟨2#3, m, n⟩) = .ok (.read n) := if_pos h

theorem decode_read_too_wide (h : ¬ n < 2 ^ c.rdMaxBits) : decode c (.cmd ⟨2#3, m, n⟩) = .error .tooWide := if_neg h

theorem decode_clrOvf : decode c (.cmd ⟨3#3, m, n⟩) = .ok .clrOvf := rfl

/-- A leading 1 makes a reserved code, whose low two bits are kept. -/
theorem reservedCode : ∀ low : BitVec 2, 1#1 ++ low ≠ 0#3 ∧ 1#1 ++ low ≠ 1#3 ∧ 1#1 ++ low ≠ 2#3 ∧ 1#1 ++ low ≠ 3#3 ∧
    (1#1 ++ low).setWidth 2 = low := by decide

theorem decode_rsv4to7 (low : BitVec 2) : decode c (.cmd ⟨1#1 ++ low, m, n⟩) = .ok (.rsv4to7 low) := by
  obtain ⟨h0, h1, h2, h3, hlow⟩ := reservedCode low
  rw [decode, decodeCmd, if_neg h0, if_neg h1, if_neg h2, if_neg h3, hlow]

/-- Settles O6: the equation of each code. -/
theorem commandCodesDecode : Obligations.CommandCodesDecode := fun c m n =>
  ⟨decode_nop c m n, decode_write c m n, decode_read c m n, decode_clrOvf c m n, decode_rsv4to7 c m n 0#2,
    decode_rsv4to7 c m n 1#2, decode_rsv4to7 c m n 2#2, decode_rsv4to7 c m n 3#2⟩

/-- Settles O7: each word is the encoding that the equation of its row speaks of. -/
theorem writtenWordsDecode : Obligations.WrittenWordsDecode :=
  ⟨decode_letterByte _ 0 false, decode_letterByte _ 25 true,
    congrArg Except.ok (decodeChar_sep (by decide) (by decide)), congrArg Except.ok (decodeChar_ign (by decide) (by decide)),
    (decode_pat _ (by decide)).trans (congrArg Except.ok (decodePat_zero _)),
    (decode_pat _ (by decide)).trans (congrArg Except.ok (decodePat_bit1 Config.standard (rest := 0x3800) (by decide))),
    (decode_pat _ (by decide)).trans (congrArg Except.ok (decodePat_bit0 Config.standard (by decide) (by decide))),
    rfl, decode_read _ _ _ (by decide)⟩

end

/-! ### Decoding and encoding -/

/-- Settles O1: the decoder's equation at each row's encoding, the operand in the range that well-formedness gives. -/
theorem decodeInvertsEncode : Obligations.DecodeInvertsEncode := by
  intro c i h
  cases i with
  | sep b =>
    obtain ⟨hs, hb⟩ : b ∈ c.separators ∧ isLetterByte b = false := by simpa [Instr.wellFormed] using h
    exact congrArg Except.ok (decodeChar_sep hb hs)
  | ign b =>
    obtain ⟨hs, hb⟩ : b ∉ c.separators ∧ isLetterByte b = false := by simpa [Instr.wellFormed] using h
    exact congrArg Except.ok (decodeChar_ign hb hs)
  | finSel => exact decode_pat c (Nat.two_pow_pos _)
  | bit1 rest =>
    have hw : 2 ^ (c.patWidth - 1) + rest < 2 ^ c.patWidth := of_decide_eq_true h
    exact (decode_pat c hw).trans (congrArg Except.ok (decodePat_bit1 c (rest_lt_of_fits hw)))
  | bit0 rest =>
    obtain ⟨hne, hlt⟩ : rest ≠ 0 ∧ rest < 2 ^ (c.patWidth - 1) := by simpa [Instr.wellFormed] using h
    have hw : rest < 2 ^ c.patWidth := hlt.trans_le (Nat.pow_le_pow_right (by decide) (Nat.sub_le _ 1))
    exact (decode_pat c hw).trans (congrArg Except.ok (decodePat_bit0 c hne hlt))
  | flushNone n =>
    obtain ⟨h1, h3⟩ : n ≠ 1 ∧ n ≠ 3 := by simpa [Instr.wellFormed] using h
    exact congrArg Except.ok (decodeRun_flushNone h1 h3)
  | write m => exact decode_write c m 0 h
  | read n => exact decode_read c [] n (of_decide_eq_true h)
  | rsv4to7 low => exact decode_rsv4to7 c [] 0 low
  | endMsg | sep2 | next | load | shift | fin | flushDot | flushDash | nop | clrOvf => rfl
  | _ lower => exact decode_encode_of_letterByte (by cases lower <;> rfl) rfl (by cases lower <;> rfl)

/-- The port or the register can hold the selector: what the decoder accepts (30_encoding R105, 70 R263, log 7). -/
def expressible (c : Config) : Selector → Bool
  | .pat w => decide (w < 2 ^ c.patWidth)
  | .cmd p => eventFits c (.command p)
  | .char _ | .noByte | .solo _ | .run _ => true

theorem eventFits_command_iff (c : Config) (p : CommandPort) :
    eventFits c (.command p) = true ↔
      (p.code = 1#3 → c.fits p.message.length = true) ∧ (p.code = 2#3 → p.maxCount < 2 ^ c.rdMaxBits) := by
  simp [eventFits, imp_iff_not_or]

/-- A command that the port expresses decodes to a well-formed instruction, whose encoding is the command without the operands it
does not have. -/
theorem decode_command_of_fits (c : Config) (p : CommandPort) (h : eventFits c (.command p) = true) :
    ∃ i, decode c (.cmd p) = .ok i ∧ i.wellFormed c = true ∧ encode c i = .cmd (canonicalCommand p) := by
  obtain ⟨code, m, n⟩ := p
  obtain ⟨hwrite, hread⟩ := (eventFits_command_iff c _).1 h
  rcases commandCode_cases code with rfl | rfl | rfl | rfl | ⟨low, rfl⟩
  · exact ⟨_, decode_nop c m n, rfl, rfl⟩
  · exact ⟨_, decode_write c m n (hwrite rfl), hwrite rfl, rfl⟩
  · exact ⟨_, decode_read c m n (hread rfl), decide_eq_true (hread rfl), rfl⟩
  · exact ⟨_, decode_clrOvf c m n, rfl, rfl⟩
  · obtain ⟨-, h1, h2, -, -⟩ := reservedCode low
    exact ⟨_, decode_rsv4to7 c m n low, rfl, by simp [encode, canonicalCommand, bareCommand, h1, h2]⟩

/-- Decoding an expressible selector: a well-formed instruction, whose encoding is the selector's canonical form. -/
theorem decode_of_expressible (c : Config) (x : Selector) (h : expressible c x = true) :
    ∃ i, decode c x = .ok i ∧ i.wellFormed c = true ∧ encode c i = x.canonical := by
  cases x with
  | char b => exact ⟨_, rfl, decodeChar_spec c b⟩
  | noByte => exact ⟨_, rfl, rfl, rfl⟩
  | solo st => cases st <;> exact ⟨_, rfl, rfl, rfl⟩
  | pat w => exact ⟨_, decode_pat c (of_decide_eq_true h), decodePat_spec c (of_decide_eq_true h)⟩
  | run n => exact ⟨_, rfl, decodeRun_spec c n⟩
  | cmd p => exact decode_command_of_fits c p h

theorem expressible_eq_false_iff (c : Config) (x : Selector) :
    expressible c x = false ↔ (∃ w, x = .pat w ∧ 2 ^ c.patWidth ≤ w) ∨
      ∃ p, x = .cmd p ∧ ((p.code = 1#3 ∧ c.fits p.message.length = false) ∨ (p.code = 2#3 ∧ 2 ^ c.rdMaxBits ≤ p.maxCount)) := by
  cases x with
  | pat w => simp [expressible]
  | cmd p => simp [expressible, eventFits, or_iff_not_imp_left]
  | _ => simp [expressible]

/-- What is not expressible is rejected by name. -/
theorem decode_of_not_expressible (c : Config) (x : Selector) (h : expressible c x = false) :
    ∃ e, decode c x = .error e := by
  rcases (expressible_eq_false_iff c x).1 h with ⟨w, rfl, hw⟩ | ⟨⟨code, m, n⟩, rfl, ⟨hcode, hm⟩ | ⟨hcode, hn⟩⟩
  · exact ⟨_, if_neg (Nat.not_lt.2 hw)⟩
  · obtain rfl : code = 1#3 := hcode
    exact ⟨_, decode_write_too_long c m n hm⟩
  · obtain rfl : code = 2#3 := hcode
    exact ⟨_, decode_read_too_wide c m n (Nat.not_lt.2 hn)⟩

/-- The decoder accepts exactly the expressible selectors. -/
theorem decode_ok_spec {c : Config} {x : Selector} {i : Instr} (h : decode c x = .ok i) :
    expressible c x = true ∧ i.wellFormed c = true ∧ encode c i = x.canonical := by
  cases hx : expressible c x with
  | true =>
    obtain ⟨j, hj, hspec⟩ := decode_of_expressible c x hx
    obtain rfl := Except.ok.inj (hj.symm.trans h)
    exact ⟨rfl, hspec⟩
  | false =>
    obtain ⟨e, he⟩ := decode_of_not_expressible c x hx
    exact absurd (he.symm.trans h) nofun

/-- Settles O2. -/
theorem encodeInvertsDecode : Obligations.EncodeInvertsDecode := by
  intro c x i h
  obtain ⟨-, -, henc⟩ := decode_ok_spec h
  exact henc

/-- Settles O3: the rejected selectors are those that are not expressible. -/
theorem decodedIsWellFormed : Obligations.DecodedIsWellFormed := by
  intro c x
  refine ⟨fun i h => ?_, ?_⟩
  · obtain ⟨-, hwf, -⟩ := decode_ok_spec h
    exact hwf
  · rw [← expressible_eq_false_iff]
    refine ⟨fun ⟨e, he⟩ => ?_, decode_of_not_expressible c x⟩
    by_contra hx
    obtain ⟨i, hi, -⟩ := decode_of_expressible c x (by simpa using hx)
    exact absurd (hi.symm.trans he) nofun

/-! ### What the engine fetches (30_encoding R104) -/

section
variable {s : State}

theorem fetch_end (hst : s.st = .fetch) (hi : s.idx = s.len) : fetch s = .ok .noByte := by
  simp [fetch, hst, hi]

theorem fetch_byte {b : Byte} (hst : s.st = .fetch) (hi : s.idx < s.len) (hb : s.msg[s.idx]? = some b) :
    fetch s = .ok (.char b) := by
  have hread : readMsg s s.idx = some b := (if_pos hi).trans hb
  simp [fetch, hst, hi.ne, hread]

theorem fetch_sep2 (hst : s.st = .sep2) : fetch s = .ok (.solo .sep2) := by simp [fetch, hst]
theorem fetch_load (hst : s.st = .load) : fetch s = .ok (.solo .load) := by simp [fetch, hst]
theorem fetch_bit (hst : s.st = .bit) : fetch s = .ok (.pat s.pat) := by simp [fetch, hst]
theorem fetch_shift (hst : s.st = .shift) : fetch s = .ok (.solo .shift) := by simp [fetch, hst]
theorem fetch_fin (hst : s.st = .fin) : fetch s = .ok (.solo .fin) := by simp [fetch, hst]
theorem fetch_next (hst : s.st = .next) : fetch s = .ok (.solo .next) := by simp [fetch, hst]

end

/-- Settles O35: the equation of each state. -/
theorem fetchSelectsByTheState : Obligations.FetchSelectsByTheState := fun _ =>
  ⟨fetch_end, fun _ => fetch_byte, fetch_sep2, fetch_load, fetch_bit, fetch_shift, fetch_fin, fetch_next⟩

/-! ### Every step answers a next state -/

/-- A running engine of the invariant fetches something its registers can hold (20_memory R63, 10_state R21). -/
theorem fetch_expressible_of_inv {s : State} (h : Inv s) (hrun : s.st ≠ .idle) :
    ∃ x, fetch s = .ok x ∧ expressible s.cfg x = true := by
  cases hst : s.st with
  | idle => exact absurd hst hrun
  | fetch =>
    rcases h.idxBound.eq_or_lt with hi | hi
    · exact ⟨_, fetch_end hst hi, rfl⟩
    · have hmsg : s.idx < s.msg.length := h.msgLength ▸ hi
      exact ⟨_, fetch_byte hst hi (List.getElem?_eq_getElem hmsg), rfl⟩
  | sep2 => exact ⟨_, fetch_sep2 hst, rfl⟩
  | load => exact ⟨_, fetch_load hst, rfl⟩
  | bit => exact ⟨_, fetch_bit hst, decide_eq_true h.patFits⟩
  | shift => exact ⟨_, fetch_shift hst, rfl⟩
  | fin => exact ⟨_, fetch_fin hst, rfl⟩
  | next => exact ⟨_, fetch_next hst, rfl⟩

theorem step_next_of_blockMoves {s : State} {rest : List Event} (h : Inv s) (hb : blockMoves s rest) :
    ∃ t, step s = .next t := by
  by_cases hen : s.st = .idle ∨ s.wait ≠ 0#3
  · exact ⟨_, step_tick s rest hb hen⟩
  · obtain ⟨hrun, hw⟩ := not_or.1 hen
    obtain ⟨x, hf, hx⟩ := fetch_expressible_of_inv h hrun
    obtain ⟨i, hd, -⟩ := decode_of_expressible s.cfg x hx
    rw [step_engine s rest x i hb hrun (not_not.1 hw) hf hd]
    exact exec_next i _

/-- A state of the invariant stops at nothing but a command that the port cannot express (30_encoding R105). -/
theorem step_next_of_inv {s : State} (h : Inv s) (hfits : scriptFits s = true) : ∃ t, step s = .next t := by
  cases he : s.events with
  | nil => exact step_next_of_blockMoves h (.inl ⟨he, rfl⟩)
  | cons e rest =>
    cases e with
    | block => exact step_next_of_blockMoves h (.inr he)
    | command p =>
      have hp : eventFits s.cfg (.command p) = true := List.all_eq_true.1 hfits _ (by simp [he])
      obtain ⟨i, hd, -⟩ := decode_command_of_fits s.cfg p hp
      rw [step_command s rest p i he hd]
      exact exec_next i _
    | cancelWr | cancelRd | reset => exact ⟨_, step_of_event s _ rest he⟩

theorem engineRow_events {s t : State} (hr : EngineRow s t) : t.events = s.events := by
  cases hr with
  | bit0 | fin => exact flushed_events s.ones s
  | _ => rfl

theorem commandRow_events {s t : State} {code : BitVec 3} (hr : CommandRow s code t) : t.events = s.events := by
  cases hr <;> rfl

theorem tail_events_of_blockMoves {s : State} {rest : List Event} (hb : blockMoves s rest) : s.events.tail = rest := by
  rcases hb with ⟨he, rfl⟩ | he <;> rw [he] <;> rfl

/-- A step takes the script's first entry, if there is one (log 1). -/
theorem step_events {s t : State} (ht : step s = .next t) : t.events = s.events.tail := by
  cases step_row s t ht with
  | tick rest hb => exact (tail_events_of_blockMoves hb).symm
  | engine rest _ hb _ _ hr => exact (engineRow_events hr).trans (tail_events_of_blockMoves hb).symm
  | command rest _ _ he hr => exact (commandRow_events hr).trans (by rw [he]; rfl)
  | cancelWr rest _ he | cancelRd rest _ he | reset rest _ _ he => rw [he]; rfl

/-- The host's promise is about the script that is left and the parameters, which never change (70_reset_and_hazards R263). -/
theorem step_keeps_scriptFits {s t : State} (hfits : scriptFits s = true) (ht : step s = .next t) : scriptFits t = true := by
  obtain ⟨-, hcfg, -⟩ := constantsNeverChange s t ht
  rw [scriptFits, List.all_eq_true] at *
  rw [hcfg, step_events ht]
  exact fun e hmem => hfits e (List.mem_of_mem_tail hmem)

/-- Settles O52. -/
theorem invariantStatesNeverStop : Obligations.InvariantStatesNeverStop := by
  intro s h hfits
  obtain ⟨t, ht⟩ := step_next_of_inv h hfits
  exact ⟨t, ht, step_keeps_scriptFits hfits ht⟩

/-! ### Bit strings as patterns (30_encoding R94) -/

/-- One more bit at the end of the string. -/
theorem patternOfBits_concat (bits : List Bool) (b : Bool) :
    patternOfBits (bits.length + 1) (bits ++ [b]) = 2 * patternOfBits bits.length bits + b.toNat := by
  simp [patternOfBits]

/-- A wider pattern has more zeros below. -/
theorem patternOfBits_add (n : Nat) (bits : List Bool) {w : Nat} (h : bits.length ≤ w) :
    patternOfBits (w + n) bits = patternOfBits w bits * 2 ^ n := by
  rw [patternOfBits, patternOfBits, Nat.mul_assoc, ← pow_add, Nat.sub_add_comm h]

/-- Reading `W + 1` bits of a doubled pattern reads the `W` bits of the pattern, then the new bit. -/
theorem allBits_double (w p : Nat) (b : Bool) : allBits (w + 1) (2 * p + b.toNat) = allBits w p ++ [b] := by
  have hbit : 2 * p + b.toNat = Nat.bit b p := (Nat.bit_val b p).symm
  simp only [allBits, List.range_succ, List.map_append, List.map_singleton, hbit]
  congr 1
  · refine List.map_congr_left fun i hi => ?_
    have hplace : w + 1 - 1 - i = (w - 1 - i).succ := by
      have := List.mem_range.1 hi
      omega
    rw [hplace, Nat.testBit_bit_succ]
  · rw [Nat.add_sub_cancel, Nat.sub_self, Nat.testBit_bit_zero]

theorem allBits_mul_two_pow (w p n : Nat) : allBits (w + n) (p * 2 ^ n) = allBits w p ++ List.replicate n false := by
  induction n with
  | zero => simp
  | succ n ih =>
    have hdouble : p * 2 ^ (n + 1) = 2 * (p * 2 ^ n) + false.toNat := by rw [pow_succ, Bool.toNat_false]; ring
    rw [← Nat.add_assoc, hdouble, allBits_double, ih, List.append_assoc, List.replicate_succ']

/-- A string with no padding is read back. -/
theorem allBits_patternOfBits_length (bits : List Bool) : allBits bits.length (patternOfBits bits.length bits) = bits := by
  induction bits using List.reverseRecOn with
  | nil => rfl
  | append_singleton bits b ih =>
    rw [List.length_append, List.length_singleton, patternOfBits_concat, allBits_double, ih]

/-- The bits of a string's pattern are the string, then the padding. -/
theorem allBits_patternOfBits {w : Nat} {bits : List Bool} (h : bits.length ≤ w) :
    allBits w (patternOfBits w bits) = bits ++ List.replicate (w - bits.length) false := by
  obtain ⟨n, rfl⟩ := Nat.exists_eq_add_of_le h
  rw [patternOfBits_add n bits le_rfl, allBits_mul_two_pow, allBits_patternOfBits_length, Nat.add_sub_cancel_left]

/-- Padding is no part of a pattern's bit string. -/
theorem rdropWhile_append_replicate {bits : List Bool} (hlast : bits.getLast? = some true) (n : Nat) :
    (bits ++ List.replicate n false).rdropWhile (fun b => !b) = bits := by
  induction n with
  | zero =>
    rw [List.replicate_zero, List.append_nil, List.rdropWhile_eq_self_iff]
    intro hne
    have : bits.getLast hne = true := by simpa [List.getLast?_eq_some_getLast hne] using hlast
    simp [this]
  | succ n ih =>
    rw [List.replicate_succ', ← List.append_assoc, List.rdropWhile_concat_pos _ _ _ rfl, ih]

/-- A string that ends in a 1 is the bit string of its pattern (40_pulse_generator R130). -/
theorem patternBits_patternOfBits {w : Nat} {bits : List Bool} (h : bits.length ≤ w) (hlast : bits.getLast? = some true) :
    patternBits w (patternOfBits w bits) = bits := by
  rw [patternBits, allBits_patternOfBits h, rdropWhile_append_replicate hlast]

theorem double_add_lt {p m : Nat} (b : Bool) (h : p < m) : 2 * p + b.toNat < m * 2 := by
  have := b.toNat_le
  omega

theorem patternOfBits_length_lt (bits : List Bool) : patternOfBits bits.length bits < 2 ^ bits.length := by
  induction bits using List.reverseRecOn with
  | nil => decide
  | append_singleton bits b ih =>
    rw [List.length_append, List.length_singleton, patternOfBits_concat, pow_succ]
    exact double_add_lt b ih

/-- The pattern of a string that fits `W` bits is a `W`-bit word (10_state R21). -/
theorem patternOfBits_lt {w : Nat} {bits : List Bool} (h : bits.length ≤ w) : patternOfBits w bits < 2 ^ w := by
  obtain ⟨n, rfl⟩ := Nat.exists_eq_add_of_le h
  rw [patternOfBits_add n bits le_rfl, pow_add]
  exact Nat.mul_lt_mul_of_pos_right (patternOfBits_length_lt bits) (Nat.two_pow_pos n)

/-- The string's first bit is the pattern's top bit. -/
theorem testBit_patternOfBits {w : Nat} {bits : List Bool} {b : Bool} (h : bits.length ≤ w) (hhead : bits.head? = some b) :
    (patternOfBits w bits).testBit (w - 1) = b := by
  have hpos : 0 < w := by
    cases bits with
    | nil => cases hhead
    | cons => exact Nat.lt_of_lt_of_le (Nat.succ_pos _) h
  have hread : (allBits w (patternOfBits w bits)).head? = some b := by
    rw [allBits_patternOfBits h, List.head?_append, hhead]
    rfl
  simpa [allBits, List.head?_range, hpos.ne'] using hread

/-! ### The grammar (30_encoding R94) -/

/-- The grammar's strings are the elements' runs, joined by single 0 bits. -/
theorem bitString_eq_intercalate (es : List Element) : bitString es = [false].intercalate (es.map Element.bits) := by
  induction es using bitString.induct with
  | case1 => rfl
  | case2 e => simp [bitString]
  | case3 e f es ih => 
    rw [bitString, ih]
    simp [List.intercalate]

theorem splitOn_bitString {es : List Element} (hne : es ≠ []) : (bitString es).splitOn false = es.map Element.bits := by
  rw [bitString_eq_intercalate]
  refine List.splitOn_intercalate false ?_ (by simpa using hne)
  rw [List.forall_mem_map]
  rintro (_ | _) - <;> decide

/-- Every string of the grammar ends in a 1 (30_encoding R94). -/
theorem bitString_getLast {es : List Element} (hne : es ≠ []) : (bitString es).getLast? = some true := by
  induction es using bitString.induct with
  | case1 => exact absurd rfl hne
  | case2 e => cases e <;> rfl
  | case3 e f es ih => simp [bitString, List.getLast?_cons, ih nofun]

/-- Every string of the grammar begins with a 1 (30_encoding R94). -/
theorem bitString_head {es : List Element} (hne : es ≠ []) : (bitString es).head? = some true := by
  match es with
  | [] => exact absurd rfl hne
  | [e] => cases e <;> rfl
  | e :: _ :: _ => cases e <;> rfl

/-- The length formula of 30_encoding R94. -/
theorem bitString_length (es : List Element) :
    (bitString es).length = es.countP (· == .dot) + 3 * es.countP (· == .dash) + (es.length - 1) := by
  induction es using bitString.induct with
  | case1 => rfl
  | case2 e => cases e <;> rfl
  | case3 e f es ih =>
    rw [bitString, List.length_append, List.length_cons, ih, List.countP_cons (l := f :: es), List.countP_cons (l := f :: es)]
    cases e <;> simp [Element.bits] <;> omega

/-! ### The table (30_encoding R96, R97) -/

theorem morse_ne_nil : ∀ k : Fin 26, morse k ≠ [] := by decide

theorem morse_injective : ∀ j k : Fin 26, morse j = morse k → j = k := by decide

/-- The longest strings are those of J, Q and Y, the shortest is that of E (R97 (d)). -/
theorem bitString_morse_length : ∀ k : Fin 26, (bitString (morse k)).length ≤ 13 ∧
    ((bitString (morse k)).length = 13 ↔ k = 9 ∨ k = 16 ∨ k = 24) ∧ ((bitString (morse k)).length = 1 ↔ k = 4) := by decide

/-- At the least width the table's words are the patterns of the Morse codes. -/
theorem romTable_thirteen : ∀ k : Fin 26, (romTable 13)[k] = patternOfBits 13 (bitString (morse k)) := by decide

/-- The table for a wider pattern has the same words with more zeros below (R96). -/
theorem romTable_scaled (width : Nat) (k : Fin 26) : (romTable width)[k] = (romTable 13)[k] * 2 ^ (width - 13) := by
  fin_cases k <;> rfl

/-- Every word is the pattern of its letter's Morse code (R94, R96). -/
theorem romTable_eq {width : Nat} (hw : 13 ≤ width) (k : Fin 26) :
    (romTable width)[k] = patternOfBits width (bitString (morse k)) := by
  obtain ⟨hlen, -⟩ := bitString_morse_length k
  obtain ⟨n, rfl⟩ := Nat.exists_eq_add_of_le hw
  rw [romTable_scaled, romTable_thirteen, Nat.add_sub_cancel_left, patternOfBits_add n _ hlen]

theorem bitString_morse_fits {width : Nat} (hw : 13 ≤ width) (k : Fin 26) : (bitString (morse k)).length ≤ width := by
  obtain ⟨hlen, -⟩ := bitString_morse_length k
  exact hlen.trans hw

/-- Every word's bit string is that of its letter's Morse code. -/
theorem patternBits_romTable {width : Nat} (hw : 13 ≤ width) (k : Fin 26) :
    patternBits width (romTable width)[k] = bitString (morse k) := by
  rw [romTable_eq hw, patternBits_patternOfBits (bitString_morse_fits hw k) (bitString_getLast (morse_ne_nil k))]

/-- Settles O8. -/
theorem romWordsFollowTheGrammar : Obligations.RomWordsFollowTheGrammar :=
  fun _ k hw => ⟨romTable_eq hw k, patternBits_romTable hw k, bitString_length (morse k)⟩

/-- The runs of a string of the grammar are dots and dashes, 1 or 3 long (R97 (b), (c)). -/
theorem length_of_mem_splitOn_bitString {es : List Element} (hne : es ≠ []) :
    ∀ run ∈ (bitString es).splitOn false, run.length = 1 ∨ run.length = 3 := by
  rw [splitOn_bitString hne, List.forall_mem_map]
  rintro (_ | _) - <;> decide

theorem bits_injective : Function.Injective Element.bits := by
  intro e f h
  cases e with
  | dot => cases f with
    | dot => rfl
    | dash => cases h
  | dash => cases f with
    | dot => cases h
    | dash => rfl

/-- A string of the grammar has one reading (R94). -/
theorem bitString_injective {es fs : List Element} (he : es ≠ []) (hf : fs ≠ []) (h : bitString es = bitString fs) : es = fs := by
  have hruns := congrArg (List.splitOn false) h
  rw [splitOn_bitString he, splitOn_bitString hf] at hruns
  exact bits_injective.list_map hruns

/-- No two letters share a word (R97 (e)). -/
theorem romTable_injective {width : Nat} (hw : 13 ≤ width) (j k : Fin 26) (h : (romTable width)[j] = (romTable width)[k]) :
    j = k := by
  have hstring : bitString (morse j) = bitString (morse k) := by rw [← patternBits_romTable hw, h, patternBits_romTable hw]
  exact morse_injective j k (bitString_injective (morse_ne_nil j) (morse_ne_nil k) hstring)

theorem romTable_lt {width : Nat} (hw : 13 ≤ width) (k : Fin 26) : (romTable width)[k] < 2 ^ width :=
  romTable_eq hw k ▸ patternOfBits_lt (bitString_morse_fits hw k)

/-- Every word has its top bit set (R97 (a)). -/
theorem romTable_testBit {width : Nat} (hw : 13 ≤ width) (k : Fin 26) : (romTable width)[k].testBit (width - 1) = true :=
  romTable_eq hw k ▸ testBit_patternOfBits (bitString_morse_fits hw k) (bitString_head (morse_ne_nil k))

theorem romTable_ne_zero {width : Nat} (hw : 13 ≤ width) (k : Fin 26) : (romTable width)[k] ≠ 0 := by
  intro hzero
  have htop := romTable_testBit hw k
  rw [hzero, Nat.zero_testBit] at htop
  exact absurd htop Bool.false_ne_true

/-- Settles O9: each clause at the word's bit string, which is the grammar's. -/
theorem romWordsAreWellShaped : Obligations.RomWordsAreWellShaped := by
  refine fun width hw => ⟨fun k => ⟨romTable_lt hw k, romTable_ne_zero hw k, romTable_testBit hw k, ?_⟩, romTable_injective hw⟩
  rw [patternBits_romTable hw k]
  exact ⟨length_of_mem_splitOn_bitString (morse_ne_nil k), bitString_morse_length k⟩

end Sys2Proof.Machine
end

section
/-! PROOFS. The statements on the generator (40_pulse_generator): what each of its steps and of its flush actions does, and what
one pattern amounts to (R130). -/

namespace Sys2Proof.Machine

/-! ### The steps that flush nothing -/

/-- Settles O19. -/
theorem loadReadsTheTableWord : Obligations.LoadReadsTheTableWord := fun _ => rfl

/-- Settles O20. -/
theorem zeroPatternEndsTheLoop : Obligations.ZeroPatternEndsTheLoop := fun _ => rfl

/-- Settles O21. -/
theorem oneBitTurnsThePulseOn : Obligations.OneBitTurnsThePulseOn := fun _ _ => rfl

/-- Settles O23. -/
theorem shiftDoublesThePattern : Obligations.ShiftDoublesThePattern := fun _ => rfl

/-! ### The steps that flush a run -/

/-- A step that flushes goes on when the flush does not raise (40_pulse_generator R124). -/
theorem orInterrupted_flush_of_quiet (s : State) (rest : State → State)
    (hquiet : s.cancelWr = false ∨ (s.ones ≠ 1 ∧ s.ones ≠ 3)) :
    orInterrupted s (flush s.ones s) rest = .next (rest (flushed s.ones s)) := by
  have hno : ¬(s.cancelWr = true ∧ (s.ones = 1 ∨ s.ones = 3)) := by
    rintro ⟨hc, hrun⟩
    rcases hquiet with hlow | ⟨h1, h3⟩
    · exact absurd (hlow.symm.trans hc) Bool.false_ne_true
    · exact hrun.elim h1 h3
  rw [orInterrupted_flush, if_neg hno]

/-- A step that flushes is the exception when it would enqueue while cancelled (40_pulse_generator R132). -/
theorem orInterrupted_flush_of_cancelled (s : State) (rest : State → State) (hc : s.cancelWr = true)
    (hrun : s.ones = 1 ∨ s.ones = 3) : orInterrupted s (flush s.ones s) rest = .next (engineFaulted s) := by
  rw [orInterrupted_flush, if_pos ⟨hc, hrun⟩]

/-- Settles O22: `BIT0` is a step that flushes. -/
theorem zeroBitFlushesThenTurnsOff : Obligations.ZeroBitFlushesThenTurnsOff :=
  fun _ s => ⟨orInterrupted_flush_of_quiet s _, orInterrupted_flush_of_cancelled s _⟩

/-- Settles O24: `FIN` is a step that flushes. -/
theorem finFlushesTheTrailingRun : Obligations.FinFlushesTheTrailingRun :=
  fun s => ⟨orInterrupted_flush_of_quiet s _, orInterrupted_flush_of_cancelled s _⟩

/-! ### The flush actions (log 9) -/

/-- An `Enqueue` on its own, not cancelled (43_queue_and_reader R191). -/
theorem enqueue_row_of_not_cancelled (c : Byte) (s : State) (hc : s.cancelWr = false) :
    orInterrupted s (enqueue c s) (fun s1 => s1) = .next (enqueued c s) := by
  rw [orInterrupted_enqueue, if_neg (Bool.eq_false_iff.1 hc), release_push_eq]

/-- An `Enqueue` on its own, cancelled (60_exceptions R224). -/
theorem enqueue_row_of_cancelled (c : Byte) (s : State) (hc : s.cancelWr = true) :
    orInterrupted s (enqueue c s) (fun s1 => s1) = .next (engineFaulted s) := by
  rw [orInterrupted_enqueue, if_pos hc, takeInterrupted_engine_eq]

/-- Settles O25. -/
theorem flushEnqueuesDotOrDash : Obligations.FlushEnqueuesDotOrDash := fun s =>
  ⟨fun hc => ⟨enqueue_row_of_not_cancelled symDot s hc, enqueue_row_of_not_cancelled symDash s hc⟩,
    fun hc => ⟨enqueue_row_of_cancelled symDot s hc, enqueue_row_of_cancelled symDash s hc⟩,
    fun _ => rfl, fun _ _ => rfl⟩

/-! ### The bit string of a pattern, bit by bit -/

theorem allBits_succ (w : Nat) (p : Pattern) : allBits (w + 1) p = p.testBit w :: allBits w p := by
  simp only [allBits, List.range_succ_eq_map, List.map_cons, List.map_map, Nat.add_sub_cancel, Nat.sub_zero]
  refine congrArg _ (List.map_congr_left fun i _ => congrArg p.testBit ?_)
  omega

/-- Bits at or above the width are not read. -/
theorem allBits_mod (w : Nat) (p : Pattern) : allBits w (p % 2 ^ w) = allBits w p := by
  refine List.map_congr_left fun i hi => ?_
  have hread : w - 1 - i < w := by
    have := List.mem_range.1 hi
    omega
  rw [Nat.testBit_mod_two_pow, decide_eq_true hread, Bool.true_and]

/-- A shift drops the top bit and reads a 0 after the others (40_pulse_generator R126). -/
theorem allBits_shiftPattern (c : Config) {w : Nat} (hw : c.patWidth = w + 1) (p : Pattern) :
    allBits c.patWidth (shiftPattern c p) = allBits w p ++ [false] := by
  rw [shiftPattern, allBits_mod, hw, Nat.mul_comm]
  exact allBits_double w p false

/-- No bit is left of a `W`-bit word exactly when it is zero (40_pulse_generator R121). -/
theorem patternBits_eq_nil_iff {w : Nat} {p : Pattern} (hp : p < 2 ^ w) : patternBits w p = [] ↔ p = 0 := by
  rw [patternBits, List.rdropWhile_eq_nil_iff]
  constructor
  · intro hzero
    refine Nat.eq_of_testBit_eq fun i => ?_
    rw [Nat.zero_testBit]
    by_cases hi : i < w
    · have hmem : p.testBit i ∈ allBits w p := List.mem_map.2 ⟨w - 1 - i, List.mem_range.2 (by omega), by congr 1; omega⟩
      simpa using hzero _ hmem
    · exact Nat.testBit_lt_two_pow (hp.trans_le (Nat.pow_le_pow_right (by decide) (Nat.le_of_not_lt hi)))
  · rintro rfl
    simp [allBits]

/-- What is dropped from the end of a list does not reach its head, unless nothing is left. -/
theorem rdropWhile_cons_of_ne_nil {α : Type} {f : α → Bool} {a : α} {l : List α} (h : (a :: l).rdropWhile f ≠ []) :
    (a :: l).rdropWhile f = a :: l.rdropWhile f := by
  simp only [List.rdropWhile, List.reverse_cons, List.dropWhile_append] at h ⊢
  by_cases hl : (l.reverse.dropWhile f).isEmpty = true
  · rw [if_pos hl] at h ⊢
    have hkeep : [a].dropWhile f = [a] := by
      by_cases ha : f a = true
      · simp [ha] at h
      · simp [ha]
    rw [hkeep, List.isEmpty_iff.1 hl]
    rfl
  · rw [if_neg hl]
    simp

/-- The bit string of a pattern that is not zero: its top bit, then that of the shifted pattern (40_pulse_generator R130). -/
theorem patternBits_of_ne_zero (c : Config) {p : Pattern} (hp : p < 2 ^ c.patWidth) (hne : p ≠ 0) :
    patternBits c.patWidth p = p.testBit (c.patWidth - 1) :: patternBits c.patWidth (shiftPattern c p) := by
  obtain ⟨w, hw⟩ : ∃ w, c.patWidth = w + 1 :=
    Nat.exists_eq_succ_of_ne_zero fun h0 => hne (by simpa [h0] using hp)
  have hleft : patternBits c.patWidth p ≠ [] := mt (patternBits_eq_nil_iff hp).1 hne
  have hshift : patternBits c.patWidth (shiftPattern c p) = (allBits w p).rdropWhile (fun b => !b) := by
    rw [patternBits, allBits_shiftPattern c hw, List.rdropWhile_concat_pos _ _ _ rfl]
  rw [hshift]
  rw [patternBits, hw, allBits_succ] at hleft ⊢
  exact rdropWhile_cons_of_ne_nil hleft

/-! ### The symbols of the runs (40_pulse_generator R130 (c)) -/

/-- A run that reaches the end of the string. -/
theorem runSymbols_replicate (n : RunLength) : runSymbols (List.replicate n true) = (runSymbol n).toList := by
  have hone : (List.replicate n true).splitOn false = [List.replicate n true] := List.splitOn_eq_singleton (by simp)
  rw [runSymbols, hone]
  change [List.replicate n true].filterMap (fun run => runSymbol run.length) = _
  cases h : runSymbol n <;> simp [h]

/-- A run that a 0 ends. -/
theorem runSymbols_replicate_append (n : RunLength) (bits : List Bool) :
    runSymbols (List.replicate n true ++ false :: bits) = (runSymbol n).toList ++ runSymbols bits := by
  rw [← runSymbols_replicate, runSymbols, List.splitOn_append_cons_self, List.filterMap_append]
  rfl

/-! ### Several symbols enqueued one after another -/

/-- `q` and `ovf` after the symbols, as far as the queue has room (43_queue_and_reader R190). -/
def offered (syms : List Byte) (s : State) : State :=
  { s with
    q := (s.q ++ syms).take s.cfg.queueCap
    ovf := s.ovf || decide (s.cfg.queueCap < s.q.length + syms.length) }

theorem offered_nil {s : State} (hq : s.q.length ≤ s.cfg.queueCap) : offered [] s = s := by
  have hovf : ¬ s.cfg.queueCap < s.q.length := Nat.not_lt.2 hq
  simp [offered, hovf, List.take_of_length_le hq]

theorem offered_append (a b : List Byte) (s : State) : offered b (offered a s) = offered (a ++ b) s := by
  have hq : ((s.q ++ a).take s.cfg.queueCap ++ b).take s.cfg.queueCap = (s.q ++ (a ++ b)).take s.cfg.queueCap := by
    rw [← List.append_assoc, List.take_append, List.take_take, List.take_append (l₁ := s.q ++ a), List.length_take]
    congr 2
    · simp
    · omega
  have hovf : (s.ovf || decide (s.cfg.queueCap < s.q.length + a.length) ||
      decide (s.cfg.queueCap < ((s.q ++ a).take s.cfg.queueCap).length + b.length)) =
        (s.ovf || decide (s.cfg.queueCap < s.q.length + (a ++ b).length)) := by
    rw [Bool.or_assoc, ← Bool.decide_or, List.length_take, List.length_append, List.length_append]
    refine congrArg _ (decide_eq_decide.2 ?_)
    omega
  unfold offered
  congr 1

/-- An enqueue is one symbol offered, with the lock FREE afterwards. -/
theorem enqueued_eq_offered (c : Byte) {s : State} (hq : s.q.length ≤ s.cfg.queueCap) :
    enqueued c s = { offered [c] s with lock := .free } := by
  have hfit : (enqueued c s).q = (s.q ++ [c]).take s.cfg.queueCap := by
    rw [enqueued_q]
    split
    · rw [List.take_of_length_le (by simpa using ‹_›)]
    · rw [List.take_append_of_le_length (by omega), List.take_of_length_le hq]
  have hdrop : (enqueued c s).ovf = (s.ovf || decide (s.cfg.queueCap < s.q.length + [c].length)) := by
    rw [enqueued_ovf]
    split
    · have hroom : ¬ s.cfg.queueCap ≤ s.q.length := by omega
      simp [hroom]
    · have hfull : s.cfg.queueCap ≤ s.q.length := by omega
      simp [hfull]
  rw [offered, ← hfit, ← hdrop]
  rfl

/-- A flush offers the symbol of its run (30_encoding R100). -/
theorem flushed_eq_offered (n : RunLength) {s : State} (hq : s.q.length ≤ s.cfg.queueCap) :
    ∃ lock, flushed n s = { offered (runSymbol n).toList s with lock := lock } := by
  rcases flushed_cases n s with ⟨rfl, he⟩ | ⟨rfl, he⟩ | ⟨h1, h3, he⟩
  · exact ⟨_, he.trans (enqueued_eq_offered symDot hq)⟩
  · exact ⟨_, he.trans (enqueued_eq_offered symDash hq)⟩
  · have hnone : runSymbol n = none := by simp [runSymbol, h1, h3]
    refine ⟨s.lock, ?_⟩
    rw [he, hnone, Option.toList_none, offered_nil hq]

/-! ### Runs that show a waveform -/

/-- A run from `s` to `t` that shows `wave` (00_scope R10). -/
def Shows (wave : List Bool) (s t : State) : Prop :=
  ∃ (n : Nat) (outs : List Output), runOutputs n s = some (outs, t) ∧ waveOf outs = wave

section
variable {s t u : State} {a b : List Bool}

theorem shows_refl (s : State) : Shows [] s s := ⟨0, [], rfl, rfl⟩

/-- A step that shows no quantum, then a run. -/
theorem shows_silent_step (hs : step s = .next t) (ho : t.out = .none) (h : Shows a t u) : Shows a s u := by
  obtain ⟨n, outs, hrun, hwave⟩ := h
  refine ⟨n + 1, _, runOutputs_succ hs hrun, ?_⟩
  rw [ho, waveOf, hwave]

/-- A step that shows a quantum, then a run. -/
theorem shows_quantum_step {level : Bool} (hs : step s = .next t) (ho : t.out = .quantum level) (h : Shows a t u) :
    Shows (level :: a) s u := by
  obtain ⟨n, outs, hrun, hwave⟩ := h
  refine ⟨n + 1, _, runOutputs_succ hs hrun, ?_⟩
  rw [ho, waveOf, hwave]

/-- One quantum of waiting, with an empty script (10_state R23). -/
theorem shows_quantum (he : s.events = []) (hw : s.wait = 1#3)
    (h : Shows a { s with wait := 0#3, out := .quantum s.pulse } u) : Shows (s.pulse :: a) s u := by
  have hstep := step_waiting s he (by rw [hw]; decide)
  rw [hw] at hstep
  exact shows_quantum_step hstep rfl h

end

/-! ### The generator on its own -/

/-- The state just before an engine step that the block takes on its own: no script, no cancel level, the queue within
capacity (log 1). -/
structure Alone (s : State) : Prop where
  noScript : s.events = []
  noCancel : s.cancelWr = false
  queueFits : s.q.length ≤ s.cfg.queueCap

section
variable {s t u : State} {a : List Bool}

theorem alone_offered (h : Alone s) (syms : List Byte) : Alone (offered syms s) :=
  { h with queueFits := List.length_take_le _ _ }

/-- An engine step shows nothing: the run goes on from the state it leaves. -/
theorem shows_engine_step {x : Selector} {i : Instr} (he : s.events = []) (hst : s.st ≠ .idle) (hw : s.wait = 0#3)
    (hf : fetch s = .ok x) (hd : decode s.cfg x = .ok i) (hx : exec i { s with out := .none } = .next t)
    (ho : t.out = .none) (h : Shows a t u) : Shows a s u := by
  have hopen : openStep [] s = { s with out := .none } := by rw [openStep, ← he]
  have hstep : step s = .next t := by rw [step_engine s [] x i (.inl ⟨he, rfl⟩) hst hw hf hd, hopen, hx]
  exact shows_silent_step hstep ho h

/-- At BIT again after the quantum of a bit and the shift (40_pulse_generator R126). -/
abbrev atNextBit (s : State) : State :=
  { s with wait := 0#3, pat := shiftPattern s.cfg s.pat, st := .bit, out := .none }

/-- The quantum of a bit, then the shift. -/
theorem shows_bit_quantum (he : s.events = []) (hst : s.st = .shift) (hw : s.wait = 1#3)
    (h : Shows a (atNextBit s) u) : Shows (s.pulse :: a) s u :=
  shows_quantum he hw <|
    shows_engine_step he (by simp [hst]) rfl (fetch_shift hst) rfl (shiftDoublesThePattern _) rfl h

/-- The step that ends a pattern's run and is not cancelled: what it leaves of a state is the symbol offered. -/
theorem flush_of_alone (h : Alone s) (rest : State → State) :
    ∃ lock, orInterrupted s (flush s.ones s) rest =
      .next (rest { offered (runSymbol s.ones).toList s with lock := lock }) := by
  obtain ⟨lock, hl⟩ := flushed_eq_offered s.ones h.queueFits
  exact ⟨lock, by rw [orInterrupted_flush_of_quiet s rest (.inl h.noCancel), hl]⟩

/-- The end of the wait set by `FIN`, the symbols having been enqueued since `s` (40_pulse_generator R127, R130). -/
def letterDone (pat : Pattern) (ones : RunLength) (lock : Lock) (syms : List Byte) (s : State) : State :=
  { offered syms s with
    pat := pat, ones := ones, lock := lock, pulse := false, wait := 0#3, st := .next, out := .quantum false }

/-- A 1 bit: an ON quantum, and the run is one longer (40_pulse_generator R122). -/
theorem shows_bit1 (h : Alone s) (hst : s.st = .bit) (hw : s.wait = 0#3) (hp : s.pat < 2 ^ s.cfg.patWidth) (hne : s.pat ≠ 0)
    (htop : s.pat.testBit (s.cfg.patWidth - 1) = true)
    (hrun : Shows a (atNextBit { s with pulse := true, ones := s.ones + 1 }) u) : Shows (true :: a) s u := by
  have hd : decode s.cfg (.pat s.pat) = .ok (.bit1 (s.pat % 2 ^ (s.cfg.patWidth - 1))) := by
    rw [decode_pat _ hp, decodePat, if_neg hne, if_pos htop]
  exact shows_engine_step h.noScript (by simp [hst]) hw (fetch_bit hst) hd (oneBitTurnsThePulseOn _ _) rfl
    (shows_bit_quantum h.noScript rfl rfl hrun)

/-- A 0 bit: the run's symbol is enqueued, then an OFF quantum (40_pulse_generator R123). -/
theorem shows_bit0 (h : Alone s) (hst : s.st = .bit) (hw : s.wait = 0#3) (hp : s.pat < 2 ^ s.cfg.patWidth) (hne : s.pat ≠ 0)
    (htop : s.pat.testBit (s.cfg.patWidth - 1) = false) :
    ∃ lock, ∀ a u,
      Shows a (atNextBit { offered (runSymbol s.ones).toList s with lock := lock, pulse := false, ones := 0 }) u →
        Shows (false :: a) s u := by
  have hd : decode s.cfg (.pat s.pat) = .ok (.bit0 (s.pat % 2 ^ (s.cfg.patWidth - 1))) := by
    rw [decode_pat _ hp, decodePat, if_neg hne, if_neg (Bool.eq_false_iff.1 htop)]
  have hopen : Alone { s with out := .none } := { h with }
  obtain ⟨lock, hx⟩ := flush_of_alone hopen _
  exact ⟨lock, fun a u hrun =>
    shows_engine_step h.noScript (by simp [hst]) hw (fetch_bit hst) hd hx rfl (shows_bit_quantum h.noScript rfl rfl hrun)⟩

/-- The trailing run and the trailing OFF quantum (40_pulse_generator R127). -/
theorem shows_fin (h : Alone s) (hst : s.st = .fin) (hw : s.wait = 0#3) :
    ∃ pat ones lock, Shows [false] s (letterDone pat ones lock (runSymbol s.ones).toList s) := by
  have hopen : Alone { s with out := .none } := { h with }
  obtain ⟨lock, hx⟩ := flush_of_alone hopen _
  exact ⟨s.pat, s.ones, lock,
    shows_engine_step h.noScript (by simp [hst]) hw (fetch_fin hst) rfl hx rfl (shows_quantum h.noScript rfl (shows_refl _))⟩

/-- From BIT to the end of the letter, the run of 1s before it counted in (40_pulse_generator R121 to R127). -/
theorem shows_pattern (bits : List Bool) : ∀ s : State, Alone s → s.st = .bit → s.wait = 0#3 →
    s.pat < 2 ^ s.cfg.patWidth → patternBits s.cfg.patWidth s.pat = bits →
    ∃ pat ones lock, Shows (bits ++ [false]) s
      (letterDone pat ones lock (runSymbols (List.replicate s.ones true ++ bits)) s) := by
  induction bits with
  | nil =>
    intro s h hst hw hp hbits
    have hzero : s.pat = 0 := (patternBits_eq_nil_iff hp).1 hbits
    have hd : decode s.cfg (.pat s.pat) = .ok .finSel := by rw [decode_pat _ hp, hzero, decodePat_zero]
    have hfin : Alone { s with st := .fin, out := .none } := { h with }
    obtain ⟨pat, ones, lock, hrun⟩ := shows_fin hfin rfl hw
    refine ⟨pat, ones, lock, ?_⟩
    rw [List.append_nil, runSymbols_replicate]
    exact shows_engine_step h.noScript (by simp [hst]) hw (fetch_bit hst) hd (zeroPatternEndsTheLoop _) rfl hrun
  | cons b bits ih =>
    intro s h hst hw hp hbits
    have hne : s.pat ≠ 0 := fun h0 => by
      rw [(patternBits_eq_nil_iff hp).2 h0] at hbits
      cases hbits
    rw [patternBits_of_ne_zero s.cfg hp hne] at hbits
    obtain ⟨htop, hrest⟩ := List.cons.inj hbits
    have hshift : shiftPattern s.cfg s.pat < 2 ^ s.cfg.patWidth := shiftPattern_lt s.cfg s.pat
    cases b with
    | true =>
      have halone : Alone (atNextBit { s with pulse := true, ones := s.ones + 1 }) := { h with }
      obtain ⟨pat, ones, lock, hrun⟩ := ih _ halone rfl rfl hshift hrest
      have hcount : List.replicate (s.ones + 1) true ++ bits = List.replicate s.ones true ++ true :: bits := by
        rw [List.replicate_succ', List.append_assoc, List.singleton_append]
      rw [hcount] at hrun
      exact ⟨pat, ones, lock, shows_bit1 h hst hw hp hne htop hrun⟩
    | false =>
      obtain ⟨l, hbit⟩ := shows_bit0 h hst hw hp hne htop
      have halone : Alone (atNextBit { offered (runSymbol s.ones).toList s with lock := l, pulse := false, ones := 0 }) :=
        { alone_offered h _ with }
      obtain ⟨pat, ones, lock, hrun⟩ := ih _ halone rfl rfl hshift hrest
      refine ⟨pat, ones, lock, ?_⟩
      rw [runSymbols_replicate_append, letterDone, ← offered_append]
      exact hbit _ _ hrun

/-- From LOAD to the end of the letter (40_pulse_generator R120, R130). -/
theorem shows_letter (h : Alone s) (hst : s.st = .load) (hw : s.wait = 0#3) (hrom : s.rom[s.k] < 2 ^ s.cfg.patWidth) :
    ∃ pat ones lock, Shows (patternBits s.cfg.patWidth s.rom[s.k] ++ [false]) s
      (letterDone pat ones lock (runSymbols (patternBits s.cfg.patWidth s.rom[s.k]))
        { s with first := false, bdone := false }) := by
  have hloaded : Alone { s with pat := s.rom[s.k], ones := 0, first := false, bdone := false, st := .bit, out := .none } :=
    { h with }
  obtain ⟨pat, ones, lock, hrun⟩ := shows_pattern _ _ hloaded rfl hw hrom rfl
  exact ⟨pat, ones, lock,
    shows_engine_step h.noScript (by simp [hst]) hw (fetch_load hst) rfl (loadReadsTheTableWord _) rfl hrun⟩

end

/-- Settles O55: the letter's run, from LOAD. -/
theorem patternIsEmittedAndDecoded : Obligations.PatternIsEmittedAndDecoded := by
  intro s he hst hw hc hq hrom
  obtain ⟨pat, ones, lock, n, outs, hrun, hwave⟩ := shows_letter ⟨he, hc, hq⟩ hst hw hrom
  have hlength : (waveOf outs).length = (patternBits s.cfg.patWidth s.rom[s.k]).length + 1 := by
    rw [hwave, List.length_append, List.length_singleton]
  exact ⟨n, outs, _, hrun, rfl, rfl, rfl, rfl, hwave, hlength, rfl, rfl⟩

end Sys2Proof.Machine
end

section
/-! PROOFS. The statements on the sequencer (42_sequencer): what each of its steps does, what a whole message amounts to
(R185), and that every WRITE terminates (R186). -/

namespace Sys2Proof.Machine

/-! ### A message byte's step -/

/-- Settles O10. -/
theorem firstLetterGoesStraightToLoad : Obligations.FirstLetterGoesStraightToLoad := by
  intro kk lower s hf
  rw [exec_letterInstr, letterStep, if_pos hf]

/-- Settles O11. -/
theorem letterAfterBoundaryWaitsOnly : Obligations.LetterAfterBoundaryWaitsOnly := by
  intro kk lower s hf hb
  rw [exec_letterInstr, letterStep, if_neg (Bool.eq_false_iff.1 hf), if_pos hb]
  rfl

/-- A step that enqueues goes on when it is not cancelled (43_queue_and_reader R191). -/
theorem orInterrupted_enqueue_of_not_cancelled (c : Byte) (s : State) (rest : State → State) (hc : s.cancelWr = false) :
    orInterrupted s (enqueue c s) rest = .next (rest (enqueued c s)) := by
  rw [orInterrupted_enqueue, if_neg (Bool.eq_false_iff.1 hc), release_push_eq]

/-- A step that enqueues is the exception when it is cancelled (60_exceptions R224). -/
theorem orInterrupted_enqueue_of_cancelled (c : Byte) (s : State) (rest : State → State) (hc : s.cancelWr = true) :
    orInterrupted s (enqueue c s) rest = .next (engineFaulted s) := by
  rw [orInterrupted_enqueue, if_pos hc, takeInterrupted_engine_eq]

/-- Settles O12: a later letter of a word is a step that enqueues. -/
theorem letterInWordEnqueuesASpace : Obligations.LetterInWordEnqueuesASpace := by
  intro kk lower s hf hb
  rw [exec_letterInstr, letterStep, if_neg (Bool.eq_false_iff.1 hf), if_neg (Bool.eq_false_iff.1 hb)]
  exact ⟨orInterrupted_enqueue_of_not_cancelled symSpace s _, orInterrupted_enqueue_of_cancelled symSpace s _⟩

theorem execSep_of_skipped {s : State} (h : s.first = true ∨ s.bdone = true) : execSep s = .next { s with st := .next } := by
  unfold execSep
  by_cases hf : s.first = true
  · rw [if_pos hf]
  · rw [if_neg hf, if_pos (h.resolve_left hf)]

/-- Settles O13. -/
theorem skippedByteOnlyMovesOn : Obligations.SkippedByteOnlyMovesOn := fun _ _ => ⟨execSep_of_skipped, rfl⟩

/-- A separator after a letter (42_sequencer R178, R179). -/
theorem execSep_after_letter {s : State} (hf : s.first = false) (hb : s.bdone = false) :
    execSep s = if letterFollows s s.idx then orInterrupted s (enqueue symSpace s) fun s1 => { s1 with st := .sep2 }
      else .next (complete s) := by
  rw [execSep, if_neg (Bool.eq_false_iff.1 hf), if_neg (Bool.eq_false_iff.1 hb)]

/-- Settles O14: the opening separator is a step that enqueues. -/
theorem openingSeparatorEnqueuesTheFirstSpace : Obligations.OpeningSeparatorEnqueuesTheFirstSpace := by
  intro b s hf hb hl
  rw [exec, execSep_after_letter hf hb, if_pos hl]
  exact ⟨orInterrupted_enqueue_of_not_cancelled symSpace s _, orInterrupted_enqueue_of_cancelled symSpace s _⟩

/-- Settles O15. -/
theorem completionReportsTheFullLength : Obligations.CompletionReportsTheFullLength := by
  refine fun s => ⟨rfl, fun b hf hb hl => ?_⟩
  rw [exec, execSep_after_letter hf hb, if_neg (Bool.eq_false_iff.1 hl)]
  rfl

/-- Settles O17: `SEP2` is a step that enqueues. -/
theorem secondSpaceOpensTheWordGap : Obligations.SecondSpaceOpensTheWordGap := fun s =>
  ⟨orInterrupted_enqueue_of_not_cancelled symSpace s _, orInterrupted_enqueue_of_cancelled symSpace s _⟩

/-- Settles O18. -/
theorem nextAdvancesTheIndex : Obligations.NextAdvancesTheIndex := fun _ => rfl

/-! ### The lookahead -/

@[simp] theorem isLetterClass_eq (c : Config) (b : Byte) : isLetterClass c b = isLetterByte b := by
  unfold isLetterClass
  cases h : isLetterByte b with
  | true => rw [classify_letter h]
  | false =>
    rw [classify_of_not_letter h]
    by_cases hs : b ∈ c.separators
    · rw [if_pos hs]
    · rw [if_neg hs]

/-- The bytes that the lookahead reads are those between `i` and `len` (42_sequencer R171). -/
theorem mem_later_bytes_iff (s : State) (i : Nat) (b : Byte) :
    b ∈ (s.msg.take s.len).drop (i + 1) ↔ ∃ j, i < j ∧ j < s.len ∧ s.msg[j]? = some b := by
  rw [List.mem_iff_getElem?]
  constructor
  · rintro ⟨n, hn⟩
    rw [List.getElem?_drop, List.getElem?_take] at hn
    split at hn
    · exact ⟨i + 1 + n, by omega, ‹_›, hn⟩
    · cases hn
  · rintro ⟨j, hij, hj, hb⟩
    refine ⟨j - (i + 1), ?_⟩
    have hat : i + 1 + (j - (i + 1)) = j := by omega
    rw [List.getElem?_drop, hat, List.getElem?_take_of_lt hj, hb]

/-- Settles O16. -/
theorem lookaheadFindsALaterLetter : Obligations.LookaheadFindsALaterLetter := by
  intro s i
  simp only [letterFollows, List.any_eq_true, mem_later_bytes_iff, isLetterClass_eq]
  constructor
  · rintro ⟨b, ⟨j, hij, hj, hmsg⟩, hb⟩
    exact ⟨j, b, hij, hj, hmsg, hb⟩
  · rintro ⟨j, b, hij, hj, hmsg, hb⟩
    exact ⟨b, ⟨j, hij, hj, hmsg⟩, hb⟩

/-! ### Runs after one another -/

theorem waveOf_append (a b : List Output) : waveOf (a ++ b) = waveOf a ++ waveOf b := by
  induction a with
  | nil => rfl
  | cons o a ih => cases o <;> simp [waveOf, ih]

section
variable {s t u : State} {a b : List Bool}

/-- A run's first step and the rest of it. -/
theorem runOutputs_succ_iff {n : Nat} {outs : List Output} :
    runOutputs (n + 1) s = some (outs, u) ↔
      ∃ t tail, step s = .next t ∧ runOutputs n t = some (tail, u) ∧ outs = t.out :: tail := by
  constructor
  · intro h
    rw [runOutputs] at h
    split at h
    · rename_i t hs
      split at h
      · rename_i tail v hr
        cases h
        exact ⟨t, tail, hs, hr, rfl⟩
      · cases h
    · cases h
    · cases h
  · rintro ⟨t, tail, hs, hr, rfl⟩
    exact runOutputs_succ hs hr

theorem runOutputs_append {m n : Nat} {outs₁ outs₂ : List Output} (hm : runOutputs m s = some (outs₁, t))
    (hn : runOutputs n t = some (outs₂, u)) : runOutputs (m + n) s = some (outs₁ ++ outs₂, u) := by
  induction m generalizing s outs₁ with
  | zero =>
    cases hm
    rwa [Nat.zero_add]
  | succ m ih =>
    obtain ⟨v, tail, hs, hr, rfl⟩ := runOutputs_succ_iff.1 hm
    rw [Nat.succ_add]
    exact runOutputs_succ hs (ih hr)

theorem shows_trans (h₁ : Shows a s t) (h₂ : Shows b t u) : Shows (a ++ b) s u := by
  obtain ⟨m, outs₁, hm, rfl⟩ := h₁
  obtain ⟨n, outs₂, hn, rfl⟩ := h₂
  exact ⟨m + n, _, runOutputs_append hm hn, waveOf_append _ _⟩

/-- A step shows its own quantum, if any. -/
theorem shows_step (hs : step s = .next t) (h : Shows a t u) : Shows (waveOf [t.out] ++ a) s u := by
  have hone : Shows (waveOf [t.out]) s t := ⟨1, [t.out], runOutputs_succ hs rfl, rfl⟩
  exact shows_trans hone h

/-- The quanta of a wait, with an empty script (10_state R23). -/
theorem shows_wait {level : Bool} (he : s.events = []) (hp : s.pulse = level) :
    ∃ o, Shows (List.replicate s.wait.toNat level) s { s with wait := 0#3, out := o } := by
  subst hp
  cases hn : s.wait.toNat with
  | zero =>
    have hw : s.wait = 0#3 := BitVec.eq_of_toNat_eq hn
    refine ⟨s.out, ?_⟩
    rw [← hw]
    exact shows_refl s
  | succ n =>
    refine ⟨_, n + 1, _, runOutputs_waiting n s he hn, ?_⟩
    generalize n + 1 = m
    induction m with
    | zero => rfl
    | succ m ih => rw [List.replicate_succ, List.replicate_succ, waveOf, ih]

/-! ### A write in progress -/

/-- The state a `WRITE` leaves that is the script's only entry (44_host_commands R206). -/
abbrev accepted (m : List Byte) (s : State) : State := respondOk (acceptWrite m (openStep [] s))

/-- An idle engine accepts the `WRITE`, which shows no quantum. -/
theorem shows_write {m : List Byte} {n : Nat} (he : s.events = [.command { code := 1#3, message := m, maxCount := n }])
    (hst : s.st = .idle) (hfit : s.cfg.fits m.length = true) (h : Shows a (accepted m s) u) : Shows a s u := by
  have hidle : busy (openStep [] s) = false := by simp [busy, hst]
  have hstep : step s = .next (accepted m s) := by
    rw [step_command s [] _ (.write m) he (decode_write s.cfg m n hfit), exec, execWrite, if_neg (Bool.eq_false_iff.1 hidle)]
  exact shows_step hstep h

/-- The engine is about to fetch, on its own, with the bytes `rest` of the message to go. -/
structure Reading (rest : List Byte) (s : State) : Prop where
  noScript : s.events = []
  atFetch : s.st = .fetch
  noWait : s.wait = 0#3
  msgLength : s.msg.length = s.len
  idxBound : s.idx ≤ s.len
  left : s.msg.drop s.idx = rest

theorem reading_accepted (m : List Byte) (s : State) : Reading m (accepted m s) where
  noScript := rfl
  atFetch := rfl
  noWait := rfl
  msgLength := rfl
  idxBound := Nat.zero_le _
  left := rfl

variable {c : Byte} {rest : List Byte}

theorem reading_nil (h : Reading [] s) : s.idx = s.len := by
  have hdone := List.drop_eq_nil_iff.1 h.left
  rw [h.msgLength] at hdone
  exact Nat.le_antisymm h.idxBound hdone

theorem reading_cons (h : Reading (c :: rest) s) :
    s.idx < s.len ∧ s.msg[s.idx]? = some c ∧ s.msg.drop (s.idx + 1) = rest := by
  have hidx : s.idx < s.msg.length := by
    by_contra hge
    have hnone := List.drop_eq_nil_iff.2 (Nat.le_of_not_lt hge)
    rw [h.left] at hnone
    cases hnone
  obtain ⟨hc, hrest⟩ := List.cons.inj ((List.drop_eq_getElem_cons hidx).symm.trans h.left)
  exact ⟨h.msgLength ▸ hidx, by rw [List.getElem?_eq_getElem hidx, hc], hrest⟩

end

/-! ### One byte of a message -/

/-- The engine at the next byte of the message, from NEXT or from a byte that `FETCH` skips (42_sequencer R181). -/
abbrev nextByte (s : State) : State := { s with idx := s.idx + 1, st := .fetch, out := .none }

section
variable {s t : State} {c : Byte} {rest : List Byte}

theorem shows_next (he : s.events = []) (hst : s.st = .next) (hw : s.wait = 0#3) : Shows [] s (nextByte s) :=
  shows_engine_step he (by simp [hst]) hw (fetch_next hst) rfl (nextAdvancesTheIndex _) rfl (shows_refl _)

/-- Whatever the byte did, the engine reads on behind it. -/
theorem reading_nextByte (h : Reading (c :: rest) s) (he : t.events = []) (hw : t.wait = 0#3) (hm : t.msg = s.msg)
    (hl : t.len = s.len) (hi : t.idx = s.idx) : Reading rest (nextByte t) := by
  obtain ⟨hlt, -, hrest⟩ := reading_cons h
  have hmsg : t.msg.length = t.len := by rw [hm, hl, h.msgLength]
  have hidx : t.idx + 1 ≤ t.len := by rwa [hl, hi]
  have hleft : t.msg.drop (t.idx + 1) = rest := by rw [hm, hi, hrest]
  exact ⟨he, rfl, hw, hmsg, hidx, hleft⟩

/-- The byte's own step, which shows no quantum. -/
theorem reading_step (h : Reading (c :: rest) s) (hx : exec (decodeChar s.cfg c) { s with out := .none } = .next t)
    (ho : t.out = .none) : Shows [] s t := by
  obtain ⟨hlt, hc, -⟩ := reading_cons h
  exact shows_engine_step h.noScript (by simp [h.atFetch]) h.noWait (fetch_byte h.atFetch hlt hc) rfl hx ho (shows_refl t)

/-- The message is exhausted (42_sequencer R172). -/
theorem reading_end (h : Reading [] s) : Shows [] s (complete { s with out := .none }) :=
  shows_engine_step h.noScript (by simp [h.atFetch]) h.noWait (fetch_end h.atFetch (reading_nil h)) rfl rfl rfl (shows_refl _)

/-- The lookahead sees the bytes that are left (42_sequencer R171). -/
theorem reading_lookahead (h : Reading (c :: rest) s) : letterFollows s s.idx = rest.any isLetterByte := by
  obtain ⟨-, -, hrest⟩ := reading_cons h
  rw [letterFollows, ← h.msgLength, List.take_length, hrest]
  exact congrArg rest.any (funext (isLetterClass_eq s.cfg))

/-- A byte that only moves on (42_sequencer R176, R177, R183). -/
theorem reading_skip (h : Reading (c :: rest) s) (hc : isLetterByte c = false)
    (hskip : c ∈ s.cfg.separators → s.first = true ∨ s.bdone = true) :
    Shows [] s (nextByte s) ∧ Reading rest (nextByte s) := by
  have hx : exec (decodeChar s.cfg c) { s with out := .none } = .next { s with st := .next, out := .none } := by
    by_cases hs : c ∈ s.cfg.separators
    · rw [decodeChar_sep hc hs]
      exact execSep_of_skipped (hskip hs)
    · rw [decodeChar_ign hc hs]
      rfl
  exact ⟨shows_trans (reading_step h hx rfl) (shows_next h.noScript rfl h.noWait),
    reading_nextByte h h.noScript h.noWait rfl rfl rfl⟩

/-- Bytes that are no letter complete the command at once while no letter has been met (42_sequencer R176, R183, R172). -/
theorem shows_without_letters (h : Reading rest s) (hf : s.first = true) (hno : ∀ b ∈ rest, isLetterByte b = false) :
    ∃ i, Shows [] s (complete { s with idx := i, out := .none }) := by
  induction rest generalizing s with
  | nil => exact ⟨s.idx, reading_end h⟩
  | cons c rest ih =>
    obtain ⟨hskip, hread⟩ := reading_skip h (hno c List.mem_cons_self) fun _ => .inl hf
    obtain ⟨i, hrun⟩ := ih hread hf fun b hb => hno b (List.mem_cons_of_mem c hb)
    exact ⟨i, shows_trans hskip hrun⟩

end

/-- Settles O58: no byte of the message is a letter, and `FETCH` does not look at the cancel level. -/
theorem messageWithoutLettersIsSilent : Obligations.MessageWithoutLettersIsSilent := by
  intro s m n he hst hfit hno
  obtain ⟨i, hrun⟩ := shows_without_letters (reading_accepted m s) rfl hno
  obtain ⟨steps, outs, hsteps, hwave⟩ := shows_write he hst hfit hrun
  exact ⟨steps, outs, _, hsteps, rfl, rfl, rfl, rfl, rfl, hwave, rfl⟩

/-! ### What is left of a message (42_sequencer R185) -/

/-- The symbols of letters and of the gaps before them (42_sequencer R185 (a)). -/
def lettersSymbols (letters : List (Gap × Fin 26)) : List Byte :=
  letters.flatMap fun x => x.1.symbols ++ (morse x.2).map Element.symbol

/-- The waveform of letters and of the gaps before them (42_sequencer R185 (b)). -/
def lettersWave (letters : List (Gap × Fin 26)) : List Bool :=
  letters.flatMap fun x => List.replicate x.1.quanta false ++ bitString (morse x.2) ++ [false]

theorem lettersSymbols_cons (gap : Gap) (k : Fin 26) (letters : List (Gap × Fin 26)) : lettersSymbols ((gap, k) :: letters) =
    gap.symbols ++ ((morse k).map Element.symbol ++ lettersSymbols letters) := by
  rw [lettersSymbols, List.flatMap_cons, List.append_assoc]
  rfl

theorem lettersWave_cons (gap : Gap) (k : Fin 26) (letters : List (Gap × Fin 26)) : lettersWave ((gap, k) :: letters) =
    List.replicate gap.quanta false ++ (bitString (morse k) ++ [false] ++ lettersWave letters) := by
  rw [lettersWave, List.flatMap_cons, List.append_assoc, List.append_assoc, List.append_assoc]
  rfl

/-- The symbols still to come: an open boundary has sent its two spaces (42_sequencer R178, R180). -/
def symbolsLeft (c : Config) (first bdone : Bool) (rest : List Byte) : List Byte :=
  (lettersSymbols (lettersFrom c (!first) bdone rest)).drop (if bdone then 2 else 0)

/-- The waveform still to come: an open boundary has waited its four quanta (42_sequencer R180). -/
def waveLeft (c : Config) (first bdone : Bool) (rest : List Byte) : List Bool :=
  (lettersWave (lettersFrom c (!first) bdone rest)).drop (if bdone then 4 else 0)

theorem symbolsLeft_start (c : Config) (m : List Byte) : symbolsLeft c true false m = messageSymbols c m := rfl

theorem waveLeft_start (c : Config) (m : List Byte) : waveLeft c true false m = messageWave c m := rfl

/-- The space a letter's own step sends (42_sequencer R173 to R175). -/
def letterSpaces (first bdone : Bool) : List Byte := if first || bdone then [] else [symSpace]

/-- The wait a letter's own step sets (42_sequencer R173 to R175). -/
def letterWait (first : Bool) : BitVec 3 := if first then 0#3 else letterGapResidual

section
variable {c : Config} {b : Byte} {rest : List Byte} {first bdone : Bool}

/-- A separator before the first letter makes no gap (42_sequencer R176). -/
theorem lettersFrom_unseen (sep : Bool) : lettersFrom c false sep rest = lettersFrom c false false rest := by
  induction rest generalizing sep with
  | nil => rfl
  | cons b rest ih =>
    cases hb : classify c b with
    | letter k => simp [lettersFrom, hb]
    | sep => simp only [lettersFrom, hb]
    | ign =>
      simp only [lettersFrom, hb]
      exact ih sep

theorem lettersFrom_letter (seen sep : Bool) (hb : isLetterByte b = true) : lettersFrom c seen sep (b :: rest) =
    (if seen then if sep then .word else .letter else .start, letterIndex b) :: lettersFrom c true false rest := by
  simp only [lettersFrom, classify_letter hb]

theorem lettersFrom_sep (seen sep : Bool) (hb : isLetterByte b = false) (hs : b ∈ c.separators) :
    lettersFrom c seen sep (b :: rest) = lettersFrom c seen true rest := by
  simp only [lettersFrom, classify_sep hb hs]

theorem lettersFrom_ign (seen sep : Bool) (hb : isLetterByte b = false) (hs : b ∉ c.separators) :
    lettersFrom c seen sep (b :: rest) = lettersFrom c seen sep rest := by
  simp only [lettersFrom, classify_ign hb hs]

/-- A byte that only moves on changes nothing of what is left (42_sequencer R176, R177, R183). -/
theorem lettersFrom_skip (hb : isLetterByte b = false) (hskip : b ∈ c.separators → first = true ∨ bdone = true) :
    lettersFrom c (!first) bdone (b :: rest) = lettersFrom c (!first) bdone rest := by
  by_cases hs : b ∈ c.separators
  · rw [lettersFrom_sep _ _ hb hs]
    rcases hskip hs with rfl | rfl
    · exact (lettersFrom_unseen true).trans (lettersFrom_unseen bdone).symm
    · rfl
  · exact lettersFrom_ign _ _ hb hs

theorem lettersFrom_eq_nil (seen sep : Bool) (hno : rest.any isLetterByte = false) : lettersFrom c seen sep rest = [] := by
  induction rest generalizing sep with
  | nil => rfl
  | cons b rest ih =>
    obtain ⟨hb, hrest⟩ := Bool.or_eq_false_iff.1 hno
    by_cases hs : b ∈ c.separators
    · rw [lettersFrom_sep _ _ hb hs, ih true hrest]
    · rw [lettersFrom_ign _ _ hb hs, ih sep hrest]

/-- The next letter after a separator in a word boundary has a word gap before it. -/
theorem lettersFrom_boundary (hany : rest.any isLetterByte = true) :
    ∃ k letters, lettersFrom c true true rest = (.word, k) :: letters := by
  induction rest with
  | nil => cases hany
  | cons b rest ih =>
    cases hb : isLetterByte b with
    | true => exact ⟨_, _, lettersFrom_letter true true hb⟩
    | false =>
      rw [List.any_cons, hb, Bool.false_or] at hany
      have hskip : lettersFrom c true true (b :: rest) = lettersFrom c true true rest :=
        lettersFrom_skip (first := false) hb fun _ => .inr rfl
      rw [hskip]
      exact ih hany

/-- Nothing is left when no letter is. -/
theorem left_of_no_letter (hno : rest.any isLetterByte = false) :
    symbolsLeft c first bdone rest = [] ∧ waveLeft c first bdone rest = [] := by
  simp [symbolsLeft, waveLeft, lettersFrom_eq_nil _ _ hno, lettersSymbols, lettersWave]

/-- What a letter's own step and the letter's run send of what is left. -/
theorem symbolsLeft_letter (hb : isLetterByte b = true) (hfirst : first = true → bdone = false) :
    symbolsLeft c first bdone (b :: rest) =
      letterSpaces first bdone ++ (morse (letterIndex b)).map Element.symbol ++ symbolsLeft c false false rest := by
  rw [List.append_assoc, symbolsLeft, lettersFrom_letter _ _ hb, lettersSymbols_cons]
  cases first with
  | true =>
    rw [hfirst rfl]
    rfl
  | false => cases bdone <;> rfl

theorem waveLeft_letter (hb : isLetterByte b = true) (hfirst : first = true → bdone = false) :
    waveLeft c first bdone (b :: rest) = List.replicate (letterWait first).toNat false ++
      (bitString (morse (letterIndex b)) ++ [false]) ++ waveLeft c false false rest := by
  rw [List.append_assoc, waveLeft, lettersFrom_letter _ _ hb, lettersWave_cons]
  cases first with
  | true =>
    rw [hfirst rfl]
    rfl
  | false => cases bdone <;> rfl

/-- What the opening of a boundary sends of what is left (42_sequencer R178, R180). -/
theorem left_boundary (hb : isLetterByte b = false) (hs : b ∈ c.separators) (hany : rest.any isLetterByte = true) :
    symbolsLeft c false false (b :: rest) = [symSpace, symSpace] ++ symbolsLeft c false true rest ∧
      waveLeft c false false (b :: rest) = List.replicate 4 false ++ waveLeft c false true rest := by
  obtain ⟨k, letters, hword⟩ := lettersFrom_boundary (c := c) hany
  have hopen : lettersFrom c true false (b :: rest) = (.word, k) :: letters := (lettersFrom_sep true false hb hs).trans hword
  simp only [symbolsLeft, waveLeft, hopen, Bool.not_false, hword]
  exact ⟨rfl, rfl⟩

end

/-- The duration of R185 (c) is that of the waveform of R185 (b). -/
theorem lettersWave_length (letters : List (Gap × Fin 26)) : (lettersWave letters).length =
    (letters.map fun x => (bitString (morse x.2)).length + 1).sum + 2 * letters.countP (fun x => x.1 == .letter)
      + 6 * letters.countP (fun x => x.1 == .word) := by
  induction letters with
  | nil => rfl
  | cons x letters ih =>
    obtain ⟨gap, k⟩ := x
    have hcons : (lettersWave ((gap, k) :: letters)).length =
        gap.quanta + (bitString (morse k)).length + 1 + (lettersWave letters).length := by
      rw [lettersWave_cons, List.length_append, List.length_append, List.length_append, List.length_replicate,
        List.length_singleton]
      omega
    rw [hcons, ih, List.map_cons, List.sum_cons, List.countP_cons, List.countP_cons]
    cases gap <;> simp [Gap.quanta] <;> omega

/-- The symbols of a letter's runs are those of its Morse code (30_encoding R98, 40_pulse_generator R130 (c)). -/
theorem runSymbols_bitString {es : List Element} (hne : es ≠ []) : runSymbols (bitString es) = es.map Element.symbol := by
  rw [runSymbols, splitOn_bitString hne, List.filterMap_map, ← List.filterMap_eq_map]
  refine List.filterMap_congr fun e _ => ?_
  cases e <;> rfl

/-! ### A whole message (42_sequencer R185) -/

/-- The symbols were enqueued between the two states, as far as the queue has room (43_queue_and_reader R190). -/
structure Offers (syms : List Byte) (s t : State) : Prop where
  queue : t.q = (offered syms s).q
  sameCfg : t.cfg = s.cfg
  sameLen : t.len = s.len

/-- Between two bytes of a message, the block on its own and the table that of 30_encoding R96: the boundary is open only
after a letter and before another (42_sequencer R178). -/
structure Between (rest : List Byte) (s : State) : Prop extends Alone s, Reading rest s where
  pulseOff : s.pulse = false
  width : 13 ≤ s.cfg.patWidth
  table : s.rom = romTable s.cfg.patWidth
  closedAtFirst : s.first = true → s.bdone = false
  openBeforeLetter : s.bdone = true → rest.any isLetterByte = true

/-- The write has ended and is reported with its full length (42_sequencer R182). -/
structure Completed (s : State) : Prop where
  noScript : s.events = []
  idle : s.st = .idle
  done : s.wrDone = true
  ok : s.wrStatus = .ok
  count : s.wrCount = s.len
  pulseOff : s.pulse = false

theorem offers_nil {s t : State} (h : Alone s) (hq : t.q = s.q) (hc : t.cfg = s.cfg) (hl : t.len = s.len) : Offers [] s t :=
  ⟨by rw [hq, offered_nil h.queueFits], hc, hl⟩

theorem offers_trans {s t u : State} {a b : List Byte} (h₁ : Offers a s t) (h₂ : Offers b t u) : Offers (a ++ b) s u := by
  obtain ⟨hq₁, hc₁, hl₁⟩ := h₁
  obtain ⟨hq₂, hc₂, hl₂⟩ := h₂
  have hboth : (offered b t).q = (offered b (offered a s)).q := by rw [offered, hq₁, hc₁]; rfl
  exact ⟨by rw [hq₂, hboth, offered_append], hc₂.trans hc₁, hl₂.trans hl₁⟩

section
variable {s t : State} {c : Byte} {rest : List Byte}

theorem alone_enqueued (h : Alone s) (c : Byte) : Alone (enqueued c s) := by
  rw [enqueued_eq_offered c h.queueFits]
  exact { alone_offered h [c] with }

theorem offers_enqueued (h : Alone s) (c : Byte) : Offers [c] s (enqueued c s) :=
  ⟨by rw [enqueued_eq_offered c h.queueFits], rfl, rfl⟩

/-- The second space of a boundary, its four quanta and the move to the next byte (42_sequencer R180, R181). -/
theorem shows_sep2 (h : Alone s) (hst : s.st = .sep2) (hw : s.wait = 0#3) (hp : s.pulse = false) :
    Shows (List.replicate 4 false) s (nextByte { enqueued symSpace s with bdone := true, wait := 0#3 }) := by
  obtain ⟨hspace, -⟩ := secondSpaceOpensTheWordGap { s with out := .none }
  have hstep := shows_engine_step h.noScript (by simp [hst]) hw (fetch_sep2 hst) rfl (hspace h.noCancel) rfl (shows_refl _)
  obtain ⟨_, hwait⟩ := shows_wait (s := { enqueued symSpace { s with out := .none } with
    bdone := true, wait := wordGapResidual, st := .next }) h.noScript hp
  exact shows_trans hstep (shows_trans hwait (shows_next h.noScript rfl rfl))

/-- A letter of the table from LOAD to the end of its trailing quantum (40_pulse_generator R130, 30_encoding R96). -/
theorem shows_tableLetter (h : Alone s) (hst : s.st = .load) (hw : s.wait = 0#3) (hwidth : 13 ≤ s.cfg.patWidth)
    (htable : s.rom = romTable s.cfg.patWidth) :
    ∃ pat ones lock, Shows (bitString (morse s.k) ++ [false]) s
      (letterDone pat ones lock ((morse s.k).map Element.symbol) { s with first := false, bdone := false }) := by
  have hword : s.rom[s.k] = (romTable s.cfg.patWidth)[s.k] := by rw [htable]
  have hrun := shows_letter h hst hw (hword ▸ romTable_lt hwidth s.k)
  rwa [hword, patternBits_romTable hwidth, runSymbols_bitString (morse_ne_nil s.k)] at hrun

/-- A letter's own step, on its own (42_sequencer R173 to R175). -/
theorem letterStep_of_alone (h : Alone s) (hw : s.wait = 0#3) (kk : Fin 26) :
    ∃ lock, letterStep kk s = .next
      { offered (letterSpaces s.first s.bdone) s with lock := lock, k := kk, wait := letterWait s.first, st := .load } := by
  rcases letterStep_cases kk s with ⟨hf, he⟩ | ⟨hf, hb, he⟩ | ⟨hf, hb, he⟩
  · have hnone : letterSpaces s.first s.bdone = [] := by simp [letterSpaces, hf]
    have hwait : letterWait s.first = s.wait := by rw [letterWait, if_pos hf, hw]
    exact ⟨s.lock, by rw [he, hnone, offered_nil h.queueFits, hwait]⟩
  · have hnone : letterSpaces s.first s.bdone = [] := by simp [letterSpaces, hb]
    have hwait : letterWait s.first = letterGapResidual := by simp [letterWait, hf]
    exact ⟨s.lock, by rw [he, hnone, offered_nil h.queueFits, hwait]⟩
  · have hspace : letterSpaces s.first s.bdone = [symSpace] := by simp [letterSpaces, hf, hb]
    have hwait : letterWait s.first = letterGapResidual := by simp [letterWait, hf]
    refine ⟨.free, ?_⟩
    rw [he, if_neg (Bool.eq_false_iff.1 h.noCancel), release_push_eq, enqueued_eq_offered symSpace h.queueFits, hspace, hwait]

/-- A byte that only moves on. -/
theorem between_skip (h : Between (c :: rest) s) (hc : isLetterByte c = false)
    (hskip : c ∈ s.cfg.separators → s.first = true ∨ s.bdone = true) :
    Shows [] s (nextByte s) ∧ Between rest (nextByte s) ∧ Offers [] s (nextByte s) := by
  obtain ⟨hrun, hread⟩ := reading_skip h.toReading hc hskip
  have hopen : s.bdone = true → rest.any isLetterByte = true := fun hb => by
    simpa [hc] using h.openBeforeLetter hb
  exact ⟨hrun, { h with toReading := hread, openBeforeLetter := hopen }, offers_nil h.toAlone rfl rfl rfl⟩

/-- A separator that opens a word boundary: two spaces and four quanta (42_sequencer R178, R180). -/
theorem between_boundary (h : Between (c :: rest) s) (hc : isLetterByte c = false) (hs : c ∈ s.cfg.separators)
    (hf : s.first = false) (hb : s.bdone = false) (hany : rest.any isLetterByte = true) :
    ∃ t, Shows (List.replicate 4 false) s t ∧ Between rest t ∧ Offers [symSpace, symSpace] s t ∧ t.first = false ∧
      t.bdone = true := by
  have hlook : letterFollows s s.idx = true := (reading_lookahead h.toReading).trans hany
  obtain ⟨hopening, -⟩ := openingSeparatorEnqueuesTheFirstSpace c { s with out := .none } hf hb hlook
  have hsep : exec (decodeChar s.cfg c) { s with out := .none } =
      .next { enqueued symSpace { s with out := .none } with st := .sep2 } := by
    rw [decodeChar_sep hc hs, hopening h.noCancel]
  have halone : Alone { enqueued symSpace s with st := .sep2, out := .none } := { alone_enqueued h.toAlone symSpace with }
  have hrun := shows_trans (reading_step h.toReading hsep rfl) (shows_sep2 halone rfl h.noWait h.pulseOff)
  have hread : Reading rest (nextByte { enqueued symSpace (enqueued symSpace s) with bdone := true, wait := 0#3 }) :=
    reading_nextByte h.toReading h.toAlone.noScript rfl rfl rfl rfl
  have hspaces := offers_trans (offers_enqueued h.toAlone symSpace) (offers_enqueued (alone_enqueued h.toAlone symSpace) symSpace)
  exact ⟨_, hrun,
    { h with
      toReading := hread
      queueFits := (alone_enqueued (alone_enqueued h.toAlone symSpace) symSpace).queueFits
      closedAtFirst := fun hfirst => absurd (hf.symm.trans hfirst) Bool.false_ne_true
      openBeforeLetter := fun _ => hany },
    { hspaces with }, hf, rfl⟩

/-- A letter: the gap that its own step adds, its run and the trailing quantum (42_sequencer R173 to R175). -/
theorem between_letter (h : Between (c :: rest) s) (hc : isLetterByte c = true) :
    ∃ t, Shows (List.replicate (letterWait s.first).toNat false ++ (bitString (morse (letterIndex c)) ++ [false])) s t ∧
      Between rest t ∧ Offers (letterSpaces s.first s.bdone ++ (morse (letterIndex c)).map Element.symbol) s t ∧
      t.first = false ∧ t.bdone = false := by
  have hopen : Alone { s with out := .none } := { h.toAlone with }
  obtain ⟨lock, hletter⟩ := letterStep_of_alone hopen h.noWait (letterIndex c)
  rw [← exec_letterInstr (letterIndex c) (c.getLsbD 5), ← decodeChar_letter hc] at hletter
  have hstep := reading_step h.toReading hletter rfl
  obtain ⟨o, hwait⟩ := shows_wait (s := { offered (letterSpaces s.first s.bdone) { s with out := .none } with
    lock := lock, k := letterIndex c, wait := letterWait s.first, st := .load }) h.toAlone.noScript h.pulseOff
  have hload : Alone { offered (letterSpaces s.first s.bdone) s with
      lock := lock, k := letterIndex c, wait := 0#3, st := .load, out := o } :=
    { alone_offered h.toAlone (letterSpaces s.first s.bdone) with }
  obtain ⟨pat, ones, lock', hrun⟩ := shows_tableLetter hload rfl rfl h.width h.table
  have hnext := shows_trans hstep (shows_trans hwait (shows_trans hrun (shows_next h.toAlone.noScript rfl rfl)))
  have hread := reading_nextByte h.toReading (t := letterDone pat ones lock' ((morse (letterIndex c)).map Element.symbol)
      { offered (letterSpaces s.first s.bdone) s with
        lock := lock, k := letterIndex c, wait := 0#3, st := .load, out := o, first := false, bdone := false })
    h.toAlone.noScript rfl rfl rfl rfl
  have hq : (offered ((morse (letterIndex c)).map Element.symbol) (offered (letterSpaces s.first s.bdone) s)).q = _ :=
    congrArg State.q (offered_append _ _ s)
  rw [List.nil_append, List.append_nil] at hnext
  exact ⟨_, hnext,
    { h with
      toReading := hread
      queueFits := List.length_take_le _ _
      pulseOff := rfl
      closedAtFirst := fun _ => rfl
      openBeforeLetter := nofun },
    ⟨hq, rfl, rfl⟩, rfl, rfl⟩

/-- The end of the message, from any byte boundary (42_sequencer R172, R182). -/
theorem between_end (h : Between [] s) : ∃ t, Shows [] s t ∧ Completed t ∧ Offers [] s t :=
  ⟨_, reading_end h.toReading, ⟨h.toAlone.noScript, rfl, rfl, rfl, rfl, h.pulseOff⟩, offers_nil h.toAlone rfl rfl rfl⟩

/-- A separator with no letter behind it completes the command (42_sequencer R179). -/
theorem between_trailing (h : Between (c :: rest) s) (hc : isLetterByte c = false) (hs : c ∈ s.cfg.separators)
    (hf : s.first = false) (hb : s.bdone = false) (hnone : rest.any isLetterByte = false) :
    ∃ t, Shows [] s t ∧ Completed t ∧ Offers [] s t := by
  have hlook : letterFollows s s.idx = false := (reading_lookahead h.toReading).trans hnone
  obtain ⟨-, htrailing⟩ := completionReportsTheFullLength { s with out := .none }
  have hx : exec (decodeChar s.cfg c) { s with out := .none } = .next (complete { s with out := .none }) := by
    rw [decodeChar_sep hc hs, htrailing c hf hb hlook]
    rfl
  exact ⟨_, reading_step h.toReading hx rfl, ⟨h.toAlone.noScript, rfl, rfl, rfl, rfl, h.pulseOff⟩,
    offers_nil h.toAlone rfl rfl rfl⟩

/-- The rest of a message, by induction on its bytes: each sends its part of what is left (42_sequencer R185). -/
theorem shows_message (h : Between rest s) :
    ∃ t, Shows (waveLeft s.cfg s.first s.bdone rest) s t ∧ Completed t ∧
      Offers (symbolsLeft s.cfg s.first s.bdone rest) s t := by
  induction rest generalizing s with
  | nil =>
    obtain ⟨hsymbols, hwave⟩ := left_of_no_letter (c := s.cfg) (first := s.first) (bdone := s.bdone) (rest := []) rfl
    rw [hsymbols, hwave]
    exact between_end h
  | cons c rest ih =>
    cases hc : isLetterByte c with
    | true =>
      obtain ⟨t, hrun, ht, hsent, hf, hb⟩ := between_letter h hc
      obtain ⟨u, hrest, hdone, hleft⟩ := ih ht
      rw [hf, hb, hsent.sameCfg] at hrest hleft
      rw [waveLeft_letter hc h.closedAtFirst, symbolsLeft_letter hc h.closedAtFirst]
      exact ⟨u, shows_trans hrun hrest, hdone, offers_trans hsent hleft⟩
    | false =>
      by_cases hskip : c ∈ s.cfg.separators → s.first = true ∨ s.bdone = true
      · obtain ⟨hrun, ht, hsent⟩ := between_skip h hc hskip
        obtain ⟨u, hrest, hdone, hleft⟩ := ih ht
        rw [waveLeft, symbolsLeft, lettersFrom_skip hc hskip]
        exact ⟨u, shows_trans hrun hrest, hdone, offers_trans hsent hleft⟩
      · simp only [Classical.not_imp, not_or, Bool.not_eq_true] at hskip
        obtain ⟨hs, hf, hb⟩ := hskip
        rw [hf, hb]
        cases hany : rest.any isLetterByte with
        | true =>
          obtain ⟨t, hrun, ht, hsent, hf', hb'⟩ := between_boundary h hc hs hf hb hany
          obtain ⟨u, hrest, hdone, hleft⟩ := ih ht
          rw [hf', hb', hsent.sameCfg] at hrest hleft
          obtain ⟨hsymbols, hwave⟩ := left_boundary hc hs hany
          rw [hsymbols, hwave]
          exact ⟨u, shows_trans hrun hrest, hdone, offers_trans hsent hleft⟩
        | false =>
          have hnone : (c :: rest).any isLetterByte = false := by rw [List.any_cons, hc, hany]; rfl
          obtain ⟨hsymbols, hwave⟩ := left_of_no_letter hnone
          rw [hsymbols, hwave]
          exact between_trailing h hc hs hf hb hany

end

/-- Settles O56: the message from the state that the `WRITE` leaves. -/
theorem messageIsEmittedAndDecoded : Obligations.MessageIsEmittedAndDecoded := by
  intro s m n he hst hp hc hwidth htable hfit hq
  have hbetween : Between m (accepted m s) :=
    { reading_accepted m s with
      noCancel := hc, queueFits := hq, pulseOff := hp, width := hwidth, table := htable, closedAtFirst := fun _ => rfl
      openBeforeLetter := nofun }
  obtain ⟨t, hrun, hdone, hsent⟩ := shows_message hbetween
  obtain ⟨steps, outs, hsteps, hwave⟩ := shows_write he hst hfit hrun
  have hlength : (waveOf outs).length = messageQuanta s.cfg m := by
    rw [hwave]
    exact lettersWave_length (messageLetters s.cfg m)
  have hqueue : t.q = (s.q ++ messageSymbols s.cfg m).take s.cfg.queueCap := by
    rw [← symbolsLeft_start]
    exact hsent.queue
  exact ⟨steps, outs, t, hsteps, hdone.noScript, hdone.idle, hdone.done, hdone.ok, hdone.count.trans hsent.sameLen,
    hdone.pulseOff, hwave.trans (waveLeft_start s.cfg m), hlength, hqueue⟩

/-! ### Every write ends (42_sequencer R186) -/

/-- A write in progress with no script, and with a table and a pattern that fit the width (10_state R21, R38). -/
structure InProgress (s : State) : Prop where
  noScript : s.events = []
  running : s.st ≠ .idle
  msgLength : s.msg.length = s.len
  idxBound : s.idx ≤ s.len
  idxRunning : s.st ≠ .fetch → s.idx < s.len
  romFits : ∀ k : Fin 26, s.rom[k] < 2 ^ s.cfg.patWidth
  patFits : s.st = .bit → s.pat < 2 ^ s.cfg.patWidth

/-- The most quanta of a byte (42_sequencer R186). -/
def byteQuanta (c : Config) : Nat := c.patWidth + 1 + 4 + 2

/-- The most quanta of the byte being processed, beyond the present wait. -/
def phaseQuanta (s : State) : Nat :=
  match s.st with
  | .idle | .fetch | .next => 0
  | .sep2 => 4
  | .load => s.cfg.patWidth + 1
  | .bit => (patternBits s.cfg.patWidth s.pat).length + 1
  | .shift => (patternBits s.cfg.patWidth (shiftPattern s.cfg s.pat)).length + 1
  | .fin => 1

/-- The bytes whose processing has not begun. -/
def bytesAhead (s : State) : Nat := if s.st = .fetch then s.len - s.idx else s.len - (s.idx + 1)

/-- The most quanta until the write ends. -/
def quantaLeft (s : State) : Nat := s.wait.toNat + phaseQuanta s + byteQuanta s.cfg * bytesAhead s

/-- A bound on the engine steps until `quantaLeft` falls: none while a wait runs. -/
def phaseSteps (s : State) : Nat :=
  if s.wait ≠ 0#3 then 0
  else match s.st with
    | .idle => 0
    | .fetch | .sep2 => 1
    | .fin | .next => 2
    | .bit => 3
    | .load | .shift => 4

/-- What falls with every step of a write in progress. -/
def stepsLeft (s : State) : Nat := 5 * quantaLeft s + phaseSteps s

section
variable {s t : State}

theorem phaseSteps_le (s : State) : phaseSteps s ≤ 4 := by
  unfold phaseSteps
  split
  · exact Nat.zero_le _
  · split <;> decide

theorem patternBits_length_le (w : Nat) (p : Pattern) : (patternBits w p).length ≤ w := by
  have hle : (patternBits w p).length ≤ (allBits w p).length := (List.rdropWhile_prefix _ _).length_le
  rwa [allBits, List.length_map, List.length_range] at hle

theorem inProgress_accepted (m : List Byte) (hrom : ∀ k : Fin 26, s.rom[k] < 2 ^ s.cfg.patWidth) :
    InProgress (accepted m s) where
  noScript := rfl
  running := nofun
  msgLength := rfl
  idxBound := Nat.zero_le _
  idxRunning := fun hne => absurd rfl hne
  romFits := hrom
  patFits := nofun

theorem quantaLeft_accepted (m : List Byte) (s : State) : quantaLeft (accepted m s) = byteQuanta s.cfg * m.length :=
  Nat.zero_add _

/-- What the engine fetches decodes, as its registers fit (20_memory R63). -/
theorem fetch_expressible_of_inProgress (h : InProgress s) : ∃ x, fetch s = .ok x ∧ expressible s.cfg x = true := by
  cases hst : s.st with
  | idle => exact absurd hst h.running
  | fetch =>
    rcases h.idxBound.eq_or_lt with hi | hi
    · exact ⟨_, fetch_end hst hi, rfl⟩
    · have hmsg : s.idx < s.msg.length := h.msgLength ▸ hi
      exact ⟨_, fetch_byte hst hi (List.getElem?_eq_getElem hmsg), rfl⟩
  | sep2 => exact ⟨_, fetch_sep2 hst, rfl⟩
  | load => exact ⟨_, fetch_load hst, rfl⟩
  | bit => exact ⟨_, fetch_bit hst, decide_eq_true (h.patFits hst)⟩
  | shift => exact ⟨_, fetch_shift hst, rfl⟩
  | fin => exact ⟨_, fetch_fin hst, rfl⟩
  | next => exact ⟨_, fetch_next hst, rfl⟩

/-- With no wait the step is a row of the transition table. -/
theorem engine_step_of_inProgress (h : InProgress s) (hw : s.wait = 0#3) :
    ∃ t, step s = .next t ∧ EngineRow (openStep [] s) t := by
  obtain ⟨x, hf, hx⟩ := fetch_expressible_of_inProgress h
  obtain ⟨i, hd, -⟩ := decode_of_expressible s.cfg x hx
  obtain ⟨t, ht⟩ := exec_next i (openStep [] s)
  have hrow : runSelector x (openStep [] s) = .next t := (runSelector_ok x i (openStep [] s) hd).trans ht
  exact ⟨t, (step_engine s [] x i (.inl ⟨h.noScript, rfl⟩) h.running hw hf hd).trans ht, runSelector_row _ t x hf hrow⟩

/-! ### What a row keeps -/

theorem engineRow_message (hr : EngineRow s t) : t.msg = s.msg ∧ t.len = s.len := by
  cases hr with
  | bit0 | fin => simp
  | _ => exact ⟨rfl, rfl⟩

/-- A write in progress ends with `wr_done`, completed or interrupted (42_sequencer R182, 60_exceptions R224). -/
theorem engineRow_done (hr : EngineRow s t) (hidle : t.st = .idle) : t.wrDone = true := by
  cases hr with
  | complete | fault => rfl
  | _ => cases hidle

/-- A byte is being processed behind every row that neither ends the write nor goes to FETCH. -/
theorem engineRow_inByte (h : InProgress s) (hr : EngineRow s t) (hrun : t.st ≠ .idle) : s.idx < s.len := by
  cases hr with
  | complete | fault => exact absurd rfl hrun
  | firstLetter | boundaryLetter | wordLetter | skip | opening => assumption
  | sep2 hst | load hst | finSel hst | bit1 hst | bit0 hst | shift hst | fin hst | next hst =>
    exact h.idxRunning (by simp [hst])

theorem engineRow_patFits (h : InProgress s) (hr : EngineRow s t) (hbit : t.st = .bit) : t.pat < 2 ^ t.cfg.patWidth := by
  cases hr with
  | load => exact h.romFits s.k
  | shift => exact shiftPattern_lt s.cfg s.pat
  | _ => cases hbit

theorem inProgress_of_engineRow (h : InProgress s) (hr : EngineRow s t) (hrun : t.st ≠ .idle) : InProgress t := by
  obtain ⟨hmsg, hlen⟩ := engineRow_message hr
  obtain ⟨hrom, hcfg, -⟩ := engineRow_constants hr
  have hlt := engineRow_inByte h hr hrun
  have hidx : t.idx ≤ s.len ∧ (t.st ≠ .fetch → t.idx < s.len) := by
    rcases engineRow_idx hr with hi | ⟨-, hst, hi⟩
    · rw [hi]
      exact ⟨hlt.le, fun _ => hlt⟩
    · rw [hi]
      exact ⟨hlt, fun hne => absurd hst hne⟩
  exact
    { noScript := (engineRow_events hr).trans h.noScript
      running := hrun
      msgLength := by rw [hmsg, hlen, h.msgLength]
      idxBound := hlen ▸ hidx.1
      idxRunning := hlen ▸ hidx.2
      romFits := by rw [hrom, hcfg]; exact h.romFits
      patFits := engineRow_patFits h hr }

/-! ### What a row costs -/

/-- A byte met by FETCH has its quanta to spend. -/
theorem quantaLeft_of_fetch (hst : s.st = .fetch) (hi : s.idx < s.len) :
    byteQuanta s.cfg + byteQuanta s.cfg * (s.len - (s.idx + 1)) ≤ quantaLeft s := by
  have hbytes : bytesAhead s = s.len - (s.idx + 1) + 1 := by
    rw [bytesAhead, if_pos hst]
    omega
  rw [quantaLeft, hbytes, Nat.mul_add_one]
  omega

/-- No quanta are added to those left, and fewer steps are left. -/
def Progress (s t : State) : Prop := quantaLeft t ≤ quantaLeft s ∧ stepsLeft t < stepsLeft s

theorem progress_of_fewer_quanta (hq : quantaLeft t < quantaLeft s) : Progress s t := by
  have := phaseSteps_le t
  refine ⟨hq.le, ?_⟩
  unfold stepsLeft
  omega

theorem progress_of_fewer_steps (hq : quantaLeft t ≤ quantaLeft s) (hp : phaseSteps t < phaseSteps s) : Progress s t := by
  refine ⟨hq, ?_⟩
  unfold stepsLeft
  omega

/-- Every row of the transition table makes progress (42_sequencer R186). -/
theorem engineRow_progress (h : InProgress s) (hw : s.wait = 0#3) (hr : EngineRow s t) (hrun : t.st ≠ .idle) :
    Progress s t := by
  cases hr with
  | complete | fault => exact absurd rfl hrun
  | firstLetter _ hst hi | skip hst hi | opening hst hi =>
    refine progress_of_fewer_quanta (lt_of_lt_of_le ?_ (quantaLeft_of_fetch hst hi))
    simp [quantaLeft, phaseQuanta, bytesAhead, byteQuanta, hw]
  | boundaryLetter _ hst hi | wordLetter _ hst hi =>
    have hgap : 2 + (s.cfg.patWidth + 1) < s.cfg.patWidth + 1 + 4 + 2 := by omega
    refine progress_of_fewer_quanta (lt_of_lt_of_le ?_ (quantaLeft_of_fetch hst hi))
    simp [quantaLeft, phaseQuanta, bytesAhead, byteQuanta, hgap]
  | sep2 hst | finSel hst | shift hst | fin hst | next hst =>
    refine progress_of_fewer_steps ?_ ?_
    · simp [quantaLeft, phaseQuanta, bytesAhead, hst, hw]
    · simp [phaseSteps, hst, hw]
  | load hst =>
    have hword := patternBits_length_le s.cfg.patWidth (readRom s s.k)
    refine progress_of_fewer_steps ?_ ?_
    · simp [quantaLeft, phaseQuanta, bytesAhead, hst, hw, hword]
    · simp [phaseSteps, hst, hw]
  | bit1 hst hne | bit0 hst hne =>
    have hbits := congrArg List.length (patternBits_of_ne_zero s.cfg (h.patFits hst) hne)
    refine progress_of_fewer_steps ?_ ?_
    · simp [quantaLeft, phaseQuanta, bytesAhead, hst, hw, hbits, Nat.add_comm]
    · simp [phaseSteps, hst, hw]

/-- A quantum of a wait is one of those counted (10_state R23). -/
theorem quantaLeft_of_waiting (hw : s.wait ≠ 0#3) (o : Output) :
    quantaLeft { s with wait := s.wait - 1#3, out := o } + 1 = quantaLeft s := by
  have hcount : (s.wait - 1#3).toNat + 1 = s.wait.toNat := by bv_omega
  change (s.wait - 1#3).toNat + phaseQuanta s + byteQuanta s.cfg * bytesAhead s + 1 = quantaLeft s
  rw [quantaLeft]
  omega

/-- The write has ended, completed or interrupted. -/
structure Ended (s : State) : Prop where
  noScript : s.events = []
  idle : s.st = .idle
  done : s.wrDone = true

/-- A write in progress ends within the quanta left, by induction on the steps left. -/
theorem inProgress_ends (h : InProgress s) : ∃ wave t, Shows wave s t ∧ Ended t ∧ wave.length ≤ quantaLeft s := by
  induction hn : stepsLeft s using Nat.strong_induction_on generalizing s with
  | _ n ih =>
    subst hn
    by_cases hw : s.wait = 0#3
    · obtain ⟨t, hs, hr⟩ := engine_step_of_inProgress h hw
      have hopen : InProgress (openStep [] s) := { h with noScript := rfl }
      obtain ⟨hout, -⟩ := engineRow_stream hr
      by_cases hidle : t.st = .idle
      · have hend : Ended t := ⟨engineRow_events hr, hidle, engineRow_done hr hidle⟩
        exact ⟨[], t, shows_silent_step hs hout (shows_refl t), hend, Nat.zero_le _⟩
      · obtain ⟨hquanta, hsteps⟩ := engineRow_progress hopen hw hr hidle
        obtain ⟨wave, u, hrun, hend, hlen⟩ := ih _ hsteps (inProgress_of_engineRow hopen hr hidle) rfl
        exact ⟨wave, u, shows_silent_step hs hout hrun, hend, hlen.trans hquanta⟩
    · have hquanta := quantaLeft_of_waiting hw (.quantum s.pulse)
      obtain ⟨-, hsteps⟩ := progress_of_fewer_quanta (Nat.lt_of_succ_le hquanta.le)
      have hleft : InProgress { s with wait := s.wait - 1#3, out := .quantum s.pulse } := { h with }
      obtain ⟨wave, u, hrun, hend, hlen⟩ := ih _ hsteps hleft rfl
      exact ⟨s.pulse :: wave, u, shows_quantum_step (step_waiting s h.noScript hw) rfl hrun, hend,
        (Nat.succ_le_succ hlen).trans hquanta.le⟩

end

/-- Settles O57: the write that the `WRITE` starts ends within the quanta of its bytes. -/
theorem everyWriteTerminates : Obligations.EveryWriteTerminates := by
  intro s m n he hst hfit hrom
  obtain ⟨wave, t, hrun, hend, hlen⟩ := inProgress_ends (inProgress_accepted m hrom)
  obtain ⟨steps, outs, hsteps, rfl⟩ := shows_write he hst hfit hrun
  rw [quantaLeft_accepted] at hlen
  exact ⟨steps, outs, t, hsteps, hend.noScript, hend.idle, hend.done, hlen⟩

end Sys2Proof.Machine
end

section
/-! PROOFS. The statement on the symbol queue's write: `Push` by the room that is left (43_queue_and_reader R190). -/

namespace Sys2Proof.Machine

/-- With room left, `Push` appends at the tail and nothing else changes. -/
theorem push_of_room {c : Byte} {s : State} (hroom : s.q.length < s.cfg.queueCap) :
    push c s = { s with q := s.q ++ [c] } :=
  if_pos hroom

/-- At capacity, `Push` drops the incoming symbol: `ovf` records it and the queue stays. -/
theorem push_of_full {c : Byte} {s : State} (hfull : s.cfg.queueCap ≤ s.q.length) :
    push c s = { s with ovf := true } :=
  if_neg (Nat.not_lt.2 hfull)

/-- Settles O26: the equation of `Push` below capacity and the one at capacity. -/
theorem pushAppendsOrDrops : Obligations.PushAppendsOrDrops :=
  fun _ _ => ⟨push_of_room, push_of_full⟩

end Sys2Proof.Machine
end

section
/-! PROOFS. The statements on the host commands (44_host_commands): the answer of each code of R206 to R211 and what it leaves
alone, the configuration load of R212 and the cancel levels of R213. -/

namespace Sys2Proof.Machine

/-! ### What a command leaves alone -/

/-- A command of the script that answers a next state is one of the commands' rows from the opened state (00_scope R9 (3)). -/
theorem commandRow_of_step {s t : State} {p : CommandPort} {rest : List Event} (he : s.events = .command p :: rest)
    (ht : step s = .next t) : CommandRow (openStep rest s) p.code t := by
  rw [step_of_event s _ rest he] at ht
  exact command_row p (openStep rest s) t ht

/-- Only an accepted `WRITE` reaches past the output, the queue, `ovf` and the lock (44_host_commands R206 to R211). -/
theorem commandRow_frame {s t : State} {code : BitVec 3} (hr : CommandRow s code t) (h : code ≠ 1#3 ∨ s.st ≠ .idle) :
    t = { s with out := t.out, q := t.q, ovf := t.ovf, lock := t.lock } := by
  cases hr with
  | accepted m hcode hidle => exact h.elim (absurd hcode) (absurd hidle)
  | _ => rfl

/-- Settles O48: `commandRow_frame` from the opened state, whose `st` is that of `s`. -/
theorem commandsLeaveTheEngineAlone : Obligations.CommandsLeaveTheEngineAlone :=
  fun _ _ _ _ he h ht => commandRow_frame (commandRow_of_step he ht) h

/-! ### `NOP`, the reserved codes and `CLR_OVF` -/

/-- Settles O28: the four reserved codes have the meaning of `NOP` (44_host_commands R211). -/
theorem nopAndReservedCodesOnlyAnswer : Obligations.NopAndReservedCodesOnlyAnswer :=
  fun _ _ => ⟨rfl, rfl⟩

/-- Settles O32: the response and the flag are the two fields that `CLR_OVF` writes. -/
theorem clrOvfClearsOnlyTheFlag : Obligations.ClrOvfClearsOnlyTheFlag :=
  fun _ => rfl

/-! ### `WRITE` -/

/-- `busy` says that a command runs (10_state R31). -/
theorem busy_iff (s : State) : busy s = true ↔ s.st ≠ .idle := bne_iff_ne

/-- An idle engine accepts the message (44_host_commands R206). -/
theorem exec_write_of_idle (m : List Byte) (s : State) (h : s.st = .idle) :
    exec (.write m) s = .next (respondOk (acceptWrite m s)) :=
  if_neg fun hbusy => (busy_iff s).1 hbusy h

/-- A running engine refuses the message (44_host_commands R207). -/
theorem exec_write_of_running (m : List Byte) (s : State) (h : s.st ≠ .idle) :
    exec (.write m) s = .next (respond { status := .busy, count := 0, data := [] } s) :=
  if_pos ((busy_iff s).2 h)

/-- Settles O29: `exec_write_of_idle`, with the fields of the accepted write and of the answer written out. -/
theorem writeIsAcceptedWhenIdle : Obligations.WriteIsAcceptedWhenIdle :=
  exec_write_of_idle

/-- Settles O30: `exec_write_of_running`, with the field of the answer written out. -/
theorem writeIsRefusedWhenBusy : Obligations.WriteIsRefusedWhenBusy :=
  exec_write_of_running

/-! ### `READ` -/

/-- A cancelled drain raises before it closes the batch (43_queue_and_reader R193, 20_memory R70). -/
theorem drain_of_cancelled (n : Nat) (s : State) (hc : s.cancelRd = true) : drain n s = .error { who := .reader } := by
  rw [drain_eq, if_pos hc]

/-- A cancelled `READ` answers `FAULT` and leaves the queue as it was (44_host_commands R208, 60_exceptions R225). -/
theorem exec_read_of_cancelled (n : Nat) (s : State) (hc : s.cancelRd = true) :
    exec (.read n) s = .next (respond { status := .fault, count := 0, data := [] } s) := by
  simp only [exec, execRead, drain_of_cancelled n s hc, takeInterrupted_reader]

/-- Settles O31: the two outcomes of the drain; the count is the length of what was taken. -/
theorem readDrainsTheQueue : Obligations.ReadDrainsTheQueue := by
  intro n s
  refine ⟨fun hc => ?_, exec_read_of_cancelled n s⟩
  have hcount : ((closedQueue s).take n).length = min n (closedQueue s).length := List.length_take
  rw [← hcount]
  exact exec_read_of_not_cancelled n s hc

/-! ### The cancel levels -/

/-- Settles O38: the turn of a level's entry writes that level and nothing else (44_host_commands R213). -/
theorem cancelLevelChangesNothingElse : Obligations.CancelLevelChangesNothingElse :=
  fun s rest level => ⟨step_of_event s (.cancelWr level) rest, step_of_event s (.cancelRd level) rest⟩

/-! ### The configuration load -/

theorem configValid_iff (p : ConfigPort) :
    configValid p = true ↔ p.present = true ∧ 1 ≤ p.dotMs.toInt ∧ p.dotMs.toInt ≤ 2000 := by
  rw [configValid, Bool.and_eq_true, Bool.and_eq_true, decide_eq_true_eq, decide_eq_true_eq, and_assoc, dotMsMin, dotMsMax]

/-- The low bits of a signed number hold it when it is not negative and they are enough. -/
theorem toNat_setWidth_of_toInt {w v : Nat} (x : BitVec w) (hmin : 0 ≤ x.toInt) (hmax : x.toInt < 2 ^ v) :
    ((x.setWidth v).toNat : Int) = x.toInt := by
  have hmsb : x.msb = false := by
    rw [BitVec.msb_eq_toInt]
    exact decide_eq_false (not_lt.2 hmin)
  have hint : x.toInt = x.toNat := BitVec.toInt_eq_toNat_of_msb hmsb
  have hfit : x.toNat < 2 ^ v := by
    rw [hint] at hmax
    exact_mod_cast hmax
  rw [hint, BitVec.toNat_setWidth, Nat.mod_eq_of_lt hfit]

/-- A value in range is taken, and its low 11 bits hold it (44_host_commands R212). -/
theorem configDotMs_of_valid {p : ConfigPort} (h : configValid p = true) :
    ((configDotMs p).toNat : Int) = p.dotMs.toInt := by
  obtain ⟨-, hmin, hmax⟩ := (configValid_iff p).1 h
  rw [configDotMs, if_pos h]
  exact toNat_setWidth_of_toInt p.dotMs (by omega) (by omega)

/-- Anything else is replaced by the default (44_host_commands R212). -/
theorem configDotMs_of_not_valid {p : ConfigPort} (h : ¬ configValid p = true) : configDotMs p = dotMsDefault :=
  if_neg h

/-- Settles O40: the load by whether the value is valid, and the warning is that it is not. -/
theorem configLoadTakesOneToTwoThousand : Obligations.ConfigLoadTakesOneToTwoThousand := by
  intro p
  rw [← configValid_iff]
  refine ⟨fun h => ⟨configDotMs_of_valid h, ?_⟩, fun h => ⟨?_, ?_⟩⟩
  · rw [configWarn, h, Bool.not_true]
  · rw [configDotMs_of_not_valid h]
    rfl
  · rw [configWarn, Bool.eq_false_iff.2 h, Bool.not_false]

end Sys2Proof.Machine
end

section
/-! PROOFS. The statements on the exception (60_exceptions): what taking it sets (R224, R225), and that only a cancelled engine
step reports `FAULT` (R220). -/

namespace Sys2Proof.Machine

/-- Settles O33: each agent's equation of the exception, with the fields of the two next states written out. -/
theorem interruptedSavesNothing : Obligations.InterruptedSavesNothing :=
  fun s => ⟨takeInterrupted_engine_eq s, takeInterrupted_reader s⟩

/-- Among the engine's steps, completion reports `OK` and the cancelled exception reports `FAULT`; the others report nothing
(42_sequencer R182, 60_exceptions R224). -/
theorem engineRow_wrStatus {s t : State} (hr : EngineRow s t) :
    t.wrStatus = s.wrStatus ∨ t.wrStatus = .ok ∨ (t = engineFaulted s ∧ s.cancelWr = true) := by
  cases hr with
  | complete => exact .inr (.inl (complete_wrStatus s))
  | fault _ hc => exact .inr (.inr ⟨rfl, hc⟩)
  | bit0 | fin => exact .inl (flushed_wrStatus s.ones s)
  | _ => exact .inl rfl

/-- A host command answers on its own response ports, not in `wr_status`; a cancelled `READ` too (60_exceptions R225). -/
theorem commandRow_wrStatus {s t : State} {code : BitVec 3} (hr : CommandRow s code t) : t.wrStatus = s.wrStatus := by
  cases hr <;> rfl

/-- Settles O34, by the rows of a step: only the engine's exception writes `FAULT`, and it needs the cancel level. -/
theorem faultNeedsTheCancelLevel : Obligations.FaultNeedsTheCancelLevel := by
  intro s t _ hquiet ht hfault
  cases step_row s t ht with
  | engine rest _ _ _ _ hr =>
    rcases engineRow_wrStatus hr with hsame | hok | ⟨-, hcancel⟩
    · exact hsame.symm.trans hfault
    · exact absurd (hok.symm.trans hfault) nofun
    · exact absurd (hquiet.symm.trans hcancel) nofun
  | command rest _ _ _ hr => exact (commandRow_wrStatus hr).symm.trans hfault
  | tick | cancelWr | cancelRd => exact hfault
  | reset rest p => exact absurd ((resetStep_wrStatus p (openStep rest s)).symm.trans hfault) nofun

end Sys2Proof.Machine
end

section
/-! PROOFS. The statement on reset (70_reset_and_hazards): the whole next state of a reset step (R250). -/

namespace Sys2Proof.Machine

/-- The reset entry of the script runs `resetStep` on its own configuration; the command on the port is not looked at
(60_exceptions R223 (1)). -/
theorem step_of_reset (s : State) (rest : List Event) (p : ConfigPort) (d : CommandPort) (he : s.events = .reset p d :: rest) :
    step s = .next (resetStep p (openStep rest s)) :=
  step_of_event s (.reset p d) rest he

/-- Settles O39: the reset entry's turn, with the fields that `resetStep` and `openStep` write in one record. -/
theorem resetStepSetsEverything : Obligations.ResetStepSetsEverything := by
  intro s rest p d he
  rw [step_of_reset s rest p d he, resetStep, openStep]

end Sys2Proof.Machine
end
